-- ==== Sys2Proof/Word.lean ====
section
/-! DEFINITION. The words of the HT-208: bytes (chapters 8 to 11) and the 32-bit microsecond count TB (R1, R2). -/

namespace Sys2Proof

/-- A byte of a frame, of a notice, of the store or of the working image. -/
abbrev Byte := BitVec 8

/-- A value of the time base TB: a 32-bit count of microseconds that wraps (1.5, R1). -/
abbrev Time := BitVec 32

end Sys2Proof
end

