-- ==== Sys2Proof/Syntax.lean ====
section
/-! DEFINITION. The commands of the HT-208: one constructor of Instr per row of spec/opcode_table.json, in the table's
order, with the operands the row's rule gives it; and the finite index sets of 1.7 (tracks, inputs, stations, flash units,
client ports) the operands are drawn from. -/

namespace Sys2Proof

/-- The two tracks (1.7). -/
inductive Track | t0 | t1
  deriving DecidableEq, Repr

/-- The wheel sensors of a track (1.7). -/
inductive Wheel | w1 | w2
  deriving DecidableEq, Repr

/-- The head-detector beams of a track (1.7). -/
inductive Beam | ha | hb
  deriving DecidableEq, Repr

/-- One of a track's four detector inputs W1, W2, HA, HB (R4). -/
inductive Input
  | wheel (w : Wheel)
  | beam (b : Beam)
  deriving DecidableEq, Repr

/-- The camera stations S0 to S7. -/
inductive Station | s0 | s1 | s2 | s3 | s4 | s5 | s6 | s7
  deriving DecidableEq, Repr

/-- The flash units U0 to U5. -/
inductive FlashId | u0 | u1 | u2 | u3 | u4 | u5
  deriving DecidableEq, Repr

/-- The client ports CP0 to CP3. -/
inductive PortId | p0 | p1 | p2 | p3
  deriving DecidableEq, Repr

/-- One of the fourteen outputs CAM0 to CAM7 and FIRE0 to FIRE5 (R126). -/
inductive OutputLine
  | cam (s : Station)
  | fire (u : FlashId)
  deriving DecidableEq, Repr

/-- One edge as an INJECT request carries it: the edge byte (input in bits 0–1, level in bit 7) and the 24-bit offset
(R146, R178). -/
structure EdgeArg where
  edge : Byte
  offset : BitVec 24
  deriving DecidableEq, Repr

/-- The commands: events on the pins, expiries of the part's own deadlines, requests of a port's processor and
characters on the maintenance line. A deadline's expiry names the deadline by its owner. A request carries the port it
is written to and the fields of its body as bytes (R162), in range or not: the request's own tests judge them. -/
inductive Instr
  /-- POWER_ON (R134). -/
  | powerOn
  /-- DEVICE_RESET (R134): RST_N is asserted. -/
  | deviceReset
  /-- DEVICE_RESET_RELEASE (R2, R1): RST_N is released with CLKSEL[1:0] at `clksel`. -/
  | deviceResetRelease (clksel : BitVec 2)
  /-- TB_START (R2): the store load has finished and TB begins counting. -/
  | tbStart
  /-- RAW_CHANGE (R5, R7): the sample of this TB value shows the pin at level `high`. -/
  | rawChange (t : Track) (i : Input) (high : Bool)
  /-- FILTER_ACCEPT (R9). -/
  | filterAccept (t : Track) (i : Input)
  /-- STUCK_DEADLINE (R12). -/
  | stuckDeadline (t : Track) (w : Wheel)
  /-- INJECTED_EDGE_DELIVERY (R147): the first queued edge of input `i` whose time is now. -/
  | injectedEdgeDelivery (t : Track) (i : Input)
  /-- INJECTION_STUCK_DEADLINE (R16). -/
  | injectionStuckDeadline (t : Track) (w : Wheel)
  /-- QUIET_DEADLINE (R40). -/
  | quietDeadline (t : Track)
  /-- WINDOW_DEADLINE (R56). -/
  | windowDeadline (t : Track) (b : Beam)
  /-- W_MAX_DEADLINE (R58). -/
  | wMaxDeadline (t : Track) (b : Beam)
  /-- CONFIRMATION_DEADLINE (R66) of the record of this number. -/
  | confirmationDeadline (number : Nat)
  /-- CAMERA_FIRE (R123): the CAMERA entry of station `s` whose fire time is now. -/
  | cameraFire (s : Station)
  /-- FLASH_FIRE (R124): the FLASH entry of unit `u` whose fire time is now. -/
  | flashFire (u : FlashId)
  /-- PULSE_END (R126). -/
  | pulseEnd (o : OutputLine)
  /-- CHARGE_DEADLINE (R107). -/
  | chargeDeadline (u : FlashId)
  /-- AGE_OUT_DEADLINE (R110) of a station's camera or of a flash unit. -/
  | ageOutDeadline (o : OutputLine)
  /-- FLINH_ASSERTED (R113). -/
  | flinhAsserted
  /-- FLINH_RELEASED (R114). -/
  | flinhReleased
  /-- DATA_WRITE (R152). -/
  | dataWrite (p : PortId) (b : Byte)
  /-- STATUS_WRITE (R154). -/
  | statusWrite (p : PortId)
  /-- DATA_READ (R156). -/
  | dataRead (p : PortId)
  /-- ATTENDANCE_DEADLINE (R159). -/
  | attendanceDeadline (p : PortId)
  /-- PORT_RESET (R160): PRST_N is asserted. -/
  | portReset (p : PortId)
  /-- PORT_RESET_RELEASE (R160). -/
  | portResetRelease (p : PortId)
  /-- NOP (R162). -/
  | nop (p : PortId)
  /-- SUBSCRIBE (R163). -/
  | subscribe (p : PortId) (tracks classes : Byte)
  /-- BIND (R165). -/
  | bind (p : PortId) (station : Byte)
  /-- UNBIND (R166). -/
  | unbind (p : PortId) (station : Byte)
  /-- SET_TRACK_MODE (R137). -/
  | setTrackMode (p : PortId) (track mode : Byte)
  /-- READ_TRACK (R167). -/
  | readTrack (p : PortId) (track : Byte)
  /-- READ_RECORD (R86). -/
  | readRecord (p : PortId) (number : BitVec 16)
  /-- LATEST_RECORDS (R87). -/
  | latestRecords (p : PortId) (track : Byte)
  /-- READ_OUTPUTS (R115). -/
  | readOutputs (p : PortId)
  /-- TAG_PASSAGE (R39). -/
  | tagPassage (p : PortId) (track : Byte) (tag : BitVec 32)
  /-- RELAY (R168). -/
  | relay (p : PortId) (target : Byte) (bytes : List Byte)
  /-- INJECT (R146). -/
  | inject (p : PortId) (track : Byte) (edges : List EdgeArg)
  /-- READ_FAULTS (R170). -/
  | readFaults (p : PortId)
  /-- RELEASE_FAULT (R170). -/
  | releaseFault (p : PortId) (mask : BitVec 16)
  /-- READ_TIME (R162). -/
  | readTime (p : PortId)
  /-- MAINT_READ (R174): 'L', addr_hi, addr_lo. -/
  | maintRead (hi lo : Byte)
  /-- MAINT_WRITE (R174): 'S', addr_hi, addr_lo, data. -/
  | maintWrite (hi lo data : Byte)
  /-- MAINT_READ_NEXT (R174): 'l'. -/
  | maintReadNext
  /-- MAINT_WRITE_NEXT (R174): 's', data. -/
  | maintWriteNext (data : Byte)
  /-- COMMIT (R176): 'C'. -/
  | commit
  /-- COMMIT_PAGE (R176): the page write under way ends and the next page begins. -/
  | commitPage
  /-- COMMIT_END (R176): the last page write ends and the store is verified. -/
  | commitEnd
  /-- CHECKSUM (R174): 'K'. -/
  | checksum
  /-- UNKNOWN_COMMAND_BYTE (R174). -/
  | unknownCommandByte (b : Byte)
  /-- CODE_BYTE (R175). -/
  | codeByte (b : Byte)
  /-- BREAK (R173). -/
  | lineBreak
  /-- FRAMING_ERROR (R173). -/
  | framingError
  /-- POWER_LOSS (R177). -/
  | powerLoss
  /-- BYTE_RECEIVED_IN_FLIGHT (R176). -/
  | byteReceivedInFlight (b : Byte)
  deriving DecidableEq, Repr

end Sys2Proof
end

