-- ==== Sys2Proof/Decode.lean ====
section
/-! DEFINITION. The command a table word spells. The HT-208 is a block: it fetches no instruction, and no row of
spec/opcode_table.json gives bits ("fields" is empty and "fixed" absent in every row), so no word spells a command. -/

namespace Sys2Proof

/-- The command that the word `w` of `nbits` bits spells by the table's bits: none, for the table gives no row any bits. -/
def decodeTableWord (_nbits _w : Nat) : Option Instr := none

end Sys2Proof
end

