-- ==== Sys2Proof/Config.lean ====
section
/-! DEFINITION. The values the manual leaves open, as constants without a body: nothing proved in this package can depend on what
they are. Each is applied to the counter State.choices, which every use advances, so that two uses are independent. -/

namespace Sys2Proof

/-- Which of `n` events taken at one TB value, in an order the manual leaves open (R3, R10, R122, R147), is taken next: the
index is reduced modulo `n` where it is used. The first argument is the number of the choice. -/
opaque Config.choose (choice n : Nat) : Nat

/-- Whether the byte at a store address of the page in progress already holds its new value when a commit is stopped
(R177: "either its old or its new value"). -/
opaque Config.mixedByteIsNew (choice addr : Nat) : Bool

/-- Whether the store cell at an address fails to take the byte a page write gives it. The manual states that a page write
writes the page (R176) and that the verify may find a difference, and not how one arises. -/
opaque Config.cellFails (choice addr : Nat) : Bool

/-- What a store cell holds after a page write it failed to take (R176: "A failed verify leaves the store as written"). -/
opaque Config.cellValue (choice addr : Nat) : BitVec 8

end Sys2Proof
end

