-- ==== Sys2Proof/Machine/Bank.lean ====
section
/-! DEFINITION. Banks: one value for each track, input, beam, station, flash unit or port, as plain records, with the read and the
update of one member; and the index sets as lists, in ascending number. -/

namespace Sys2Proof

/-- Track 0 and track 1. -/
def Track.all : List Track := [.t0, .t1]

/-- The other track. -/
def Track.other : Track → Track
  | .t0 => .t1
  | .t1 => .t0

/-- The inputs of a track in the order of their codes (R178). -/
def Input.all : List Input := [.wheel .w1, .wheel .w2, .beam .ha, .beam .hb]

/-- The wheel sensors of a track. -/
def Wheel.all : List Wheel := [.w1, .w2]

/-- The beams of a track. -/
def Beam.all : List Beam := [.ha, .hb]

/-- S0 to S7 in ascending number. -/
def Station.all : List Station := [.s0, .s1, .s2, .s3, .s4, .s5, .s6, .s7]

/-- U0 to U5 in ascending number. -/
def FlashId.all : List FlashId := [.u0, .u1, .u2, .u3, .u4, .u5]

/-- CP0 to CP3 in ascending number. -/
def PortId.all : List PortId := [.p0, .p1, .p2, .p3]

end Sys2Proof

namespace Sys2Proof.Machine

/-- One value per track. -/
structure PerTrack (α : Type) where
  t0 : α
  t1 : α
  deriving DecidableEq, Repr

/-- The member of index `i`. -/
def PerTrack.get {α : Type} (b : PerTrack α) (i : Track) : α :=
  match i with
  | .t0 => b.t0
  | .t1 => b.t1

/-- The bank with the member of index `i` replaced by `x`. -/
def PerTrack.set {α : Type} (b : PerTrack α) (i : Track) (x : α) : PerTrack α :=
  match i with
  | .t0 => { b with t0 := x }
  | .t1 => { b with t1 := x }

/-- The bank with `f` applied to the member of index `i`. -/
def PerTrack.modify {α : Type} (b : PerTrack α) (i : Track) (f : α → α) : PerTrack α :=
  b.set i (f (b.get i))

/-- The bank whose member of index `i` is `f i`. -/
def PerTrack.tabulate {α : Type} (f : Track → α) : PerTrack α :=
  ⟨f .t0, f .t1⟩

/-- One value per detector input of a track. -/
structure PerInput (α : Type) where
  w1 : α
  w2 : α
  ha : α
  hb : α
  deriving DecidableEq, Repr

/-- The member of index `i`. -/
def PerInput.get {α : Type} (b : PerInput α) (i : Input) : α :=
  match i with
  | .wheel .w1 => b.w1
  | .wheel .w2 => b.w2
  | .beam .ha => b.ha
  | .beam .hb => b.hb

/-- The bank with the member of index `i` replaced by `x`. -/
def PerInput.set {α : Type} (b : PerInput α) (i : Input) (x : α) : PerInput α :=
  match i with
  | .wheel .w1 => { b with w1 := x }
  | .wheel .w2 => { b with w2 := x }
  | .beam .ha => { b with ha := x }
  | .beam .hb => { b with hb := x }

/-- The bank with `f` applied to the member of index `i`. -/
def PerInput.modify {α : Type} (b : PerInput α) (i : Input) (f : α → α) : PerInput α :=
  b.set i (f (b.get i))

/-- The bank whose member of index `i` is `f i`. -/
def PerInput.tabulate {α : Type} (f : Input → α) : PerInput α :=
  ⟨f (.wheel .w1), f (.wheel .w2), f (.beam .ha), f (.beam .hb)⟩

/-- One value per beam of a track. -/
structure PerBeam (α : Type) where
  ha : α
  hb : α
  deriving DecidableEq, Repr

/-- The member of index `i`. -/
def PerBeam.get {α : Type} (b : PerBeam α) (i : Beam) : α :=
  match i with
  | .ha => b.ha
  | .hb => b.hb

/-- The bank with the member of index `i` replaced by `x`. -/
def PerBeam.set {α : Type} (b : PerBeam α) (i : Beam) (x : α) : PerBeam α :=
  match i with
  | .ha => { b with ha := x }
  | .hb => { b with hb := x }

/-- The bank with `f` applied to the member of index `i`. -/
def PerBeam.modify {α : Type} (b : PerBeam α) (i : Beam) (f : α → α) : PerBeam α :=
  b.set i (f (b.get i))

/-- The bank whose member of index `i` is `f i`. -/
def PerBeam.tabulate {α : Type} (f : Beam → α) : PerBeam α :=
  ⟨f .ha, f .hb⟩

/-- One value per camera station. -/
structure PerStation (α : Type) where
  s0 : α
  s1 : α
  s2 : α
  s3 : α
  s4 : α
  s5 : α
  s6 : α
  s7 : α
  deriving DecidableEq, Repr

/-- The member of index `i`. -/
def PerStation.get {α : Type} (b : PerStation α) (i : Station) : α :=
  match i with
  | .s0 => b.s0
  | .s1 => b.s1
  | .s2 => b.s2
  | .s3 => b.s3
  | .s4 => b.s4
  | .s5 => b.s5
  | .s6 => b.s6
  | .s7 => b.s7

/-- The bank with the member of index `i` replaced by `x`. -/
def PerStation.set {α : Type} (b : PerStation α) (i : Station) (x : α) : PerStation α :=
  match i with
  | .s0 => { b with s0 := x }
  | .s1 => { b with s1 := x }
  | .s2 => { b with s2 := x }
  | .s3 => { b with s3 := x }
  | .s4 => { b with s4 := x }
  | .s5 => { b with s5 := x }
  | .s6 => { b with s6 := x }
  | .s7 => { b with s7 := x }

/-- The bank with `f` applied to the member of index `i`. -/
def PerStation.modify {α : Type} (b : PerStation α) (i : Station) (f : α → α) : PerStation α :=
  b.set i (f (b.get i))

/-- The bank whose member of index `i` is `f i`. -/
def PerStation.tabulate {α : Type} (f : Station → α) : PerStation α :=
  ⟨f .s0, f .s1, f .s2, f .s3, f .s4, f .s5, f .s6, f .s7⟩

/-- One value per flash unit. -/
structure PerUnit (α : Type) where
  u0 : α
  u1 : α
  u2 : α
  u3 : α
  u4 : α
  u5 : α
  deriving DecidableEq, Repr

/-- The member of index `i`. -/
def PerUnit.get {α : Type} (b : PerUnit α) (i : FlashId) : α :=
  match i with
  | .u0 => b.u0
  | .u1 => b.u1
  | .u2 => b.u2
  | .u3 => b.u3
  | .u4 => b.u4
  | .u5 => b.u5

/-- The bank with the member of index `i` replaced by `x`. -/
def PerUnit.set {α : Type} (b : PerUnit α) (i : FlashId) (x : α) : PerUnit α :=
  match i with
  | .u0 => { b with u0 := x }
  | .u1 => { b with u1 := x }
  | .u2 => { b with u2 := x }
  | .u3 => { b with u3 := x }
  | .u4 => { b with u4 := x }
  | .u5 => { b with u5 := x }

/-- The bank with `f` applied to the member of index `i`. -/
def PerUnit.modify {α : Type} (b : PerUnit α) (i : FlashId) (f : α → α) : PerUnit α :=
  b.set i (f (b.get i))

/-- The bank whose member of index `i` is `f i`. -/
def PerUnit.tabulate {α : Type} (f : FlashId → α) : PerUnit α :=
  ⟨f .u0, f .u1, f .u2, f .u3, f .u4, f .u5⟩

/-- One value per client port. -/
structure PerPort (α : Type) where
  p0 : α
  p1 : α
  p2 : α
  p3 : α
  deriving DecidableEq, Repr

/-- The member of index `i`. -/
def PerPort.get {α : Type} (b : PerPort α) (i : PortId) : α :=
  match i with
  | .p0 => b.p0
  | .p1 => b.p1
  | .p2 => b.p2
  | .p3 => b.p3

/-- The bank with the member of index `i` replaced by `x`. -/
def PerPort.set {α : Type} (b : PerPort α) (i : PortId) (x : α) : PerPort α :=
  match i with
  | .p0 => { b with p0 := x }
  | .p1 => { b with p1 := x }
  | .p2 => { b with p2 := x }
  | .p3 => { b with p3 := x }

/-- The bank with `f` applied to the member of index `i`. -/
def PerPort.modify {α : Type} (b : PerPort α) (i : PortId) (f : α → α) : PerPort α :=
  b.set i (f (b.get i))

/-- The bank whose member of index `i` is `f i`. -/
def PerPort.tabulate {α : Type} (f : PortId → α) : PerPort α :=
  ⟨f .p0, f .p1, f .p2, f .p3⟩

end Sys2Proof.Machine
end

