-- ==== Sys2Proof/Machine/State.lean ====
section
/-! DEFINITION. The state of the HT-208 as plain data, block by block in the order of the chapters, and the state after reset. -/

namespace Sys2Proof.Machine

/-! ### Time base (chapter 1) -/

/-- Where the part stands between power and counting (1.10, R2, R134): without power; RST_N asserted; RST_N released and TB
still held at 0; TB counting. -/
inductive Power | unpowered | inReset | loading | running
  deriving DecidableEq, Repr

/-- The time base (R1, R2). -/
structure Clock where
  power : Power
  /-- CLKSEL[1:0] as sampled at the last release of RST_N. -/
  clksel : BitVec 2
  /-- REFCLK periods elapsed in the divided period under way (the model's own field). -/
  refPhase : Nat
  tb : Time
  /-- The load of this start failed its checksum and STORE_INVALID is still to be raised (R171). -/
  loadFailed : Bool
  deriving DecidableEq, Repr

/-! ### Input conditioners (chapter 1) -/

/-- A pin state or an injection state (R4). -/
inductive PinState | inactive | active | stuck
  deriving DecidableEq, Repr

/-- A pending filter (R4, R7): the new level, as active or inactive, its start and its deadline. -/
structure Filter where
  toActive : Bool
  t0 : Time
  deadline : Time
  deriving DecidableEq, Repr

/-- An input conditioner (R4) with the last sample of its pin (R5). -/
structure Conditioner where
  /-- The electrical level of the last sample: true for high. -/
  raw : Bool
  /-- The sample of the present TB value has been taken (the model's own field, R5). -/
  sampleTaken : Bool
  pin : PinState
  filter : Option Filter
  stuckAt : Option Time
  injection : PinState
  injectionStuckAt : Option Time
  deriving DecidableEq, Repr

/-! ### Passage units (chapter 2) -/

/-- Direction A (rising position) or B (1.6). -/
inductive Direction | a | b
  deriving DecidableEq, Repr

/-- The fields of an open passage (R21). The unit is RUNNING or REVERSED by `reversed` (R20). -/
structure Passage where
  number : Nat
  direction : Direction
  reversed : Bool
  openTime : Time
  leading : Nat
  trailing : Nat
  accepted : Nat
  rejected : Nat
  /-- v_est, present while the valid flag is valid. -/
  vEst : Option Nat
  discord : Nat
  orphan : Nat
  heads : Nat
  lastEdge : Time
  quietAt : Option Time
  quietElapsed : Bool
  tag : Option (BitVec 32)
  /-- The axle queue, oldest first. -/
  queue : List Time
  deriving DecidableEq, Repr

/-! ### Head detector units (chapter 3) -/

/-- The role of a head detector unit (R46). -/
inductive Role | none | near | far
  deriving DecidableEq, Repr

/-- The fields of a head under way (R46). -/
structure Head where
  tLead : Time
  strips : Nat
  wMaxAt : Option Time
  limitPassed : Bool
  record : Option Nat
  deriving DecidableEq, Repr

/-- The state of a head detector unit, with the fields present in it (R46). -/
inductive HeadState
  | clear
  | covered (h : Head)
  | gap (h : Head) (tTrail windowAt : Time)
  | blocked
  deriving DecidableEq, Repr

/-- A head detector unit (R46). -/
structure HeadUnit where
  state : HeadState
  role : Role
  pendingRole : Option Role
  deriving DecidableEq, Repr

/-! ### Head record table (chapter 4) -/

/-- Camera outcomes (R74). -/
inductive CameraOutcome
  | notServed | unattended | pending | fired | missedLate | missedHorizon | missedBusy | missedListFull | conflict | cancelled
  deriving DecidableEq, Repr

/-- Flash results (R75). -/
inductive FlashResult | notUsed | suppressed | booked | fired | unavailable | cancelled
  deriving DecidableEq, Repr

/-- A record's entry for one station (R73). -/
structure StationEntry where
  station : Station
  camera : CameraOutcome
  flash : FlashResult
  trigger : Option Time
  /-- The fired mask: bit u for unit u. -/
  fired : BitVec 6
  deriving DecidableEq, Repr

/-- Record states (R76). -/
inductive RecordState | forming | planned | done | spurious | blocked | untimed | abandoned
  deriving DecidableEq, Repr

/-- Confirmations (R72). -/
inductive Confirmation | none | waiting | matched | missing
  deriving DecidableEq, Repr

/-- A head record (R72), with its confirmation deadline and overdue mark (R71). -/
structure HeadRecord where
  number : Nat
  track : Track
  direction : Direction
  passage : Nat
  /-- The mode flag: true for TEST. -/
  test : Bool
  state : RecordState
  tLead : Time
  tTrail : Option Time
  strips : Nat
  width : Nat
  length : Nat
  speed : Nat
  confirmation : Confirmation
  expectedFar : Option Time
  residual : Option Int
  tag : Option (BitVec 32)
  entries : List StationEntry
  confirmAt : Option Time
  overdue : Bool
  /-- The record was allocated in the passage now open on its track (the model's own field: R39, R41). -/
  ofOpenPassage : Bool
  deriving DecidableEq, Repr

/-- The head record table (R71): the records held, in creation order, and the next number. -/
structure RecordTable where
  records : List HeadRecord
  next : Nat
  deriving DecidableEq, Repr

/-! ### Exposure planner (chapter 5) -/

/-- A station's occupancy (R89). -/
structure Occupancy where
  lastFire : Option Time
  ageOutAt : Option Time
  deriving DecidableEq, Repr

/-- A flash unit's state (R107). -/
inductive UnitState | ready | charging | inhibited
  deriving DecidableEq, Repr

/-- A flash unit's record (R89). -/
structure FlashUnit where
  state : UnitState
  lastFire : Option Time
  chargeAt : Option Time
  ageOutAt : Option Time
  bookings : List Time
  deriving DecidableEq, Repr

/-- The flash inhibit (R112). -/
structure Inhibit where
  /-- The level of the FLINH pin as last sampled, or before TB starts as last driven. -/
  pin : Bool
  asserted : Bool
  /-- The sample of the present TB value has been taken (the model's own field). -/
  sampleTaken : Bool
  deriving DecidableEq, Repr

/-! ### Trigger sequencer (chapter 6) -/

/-- A trigger list entry (R118); its kind is that of its output. -/
structure Entry where
  fireAt : Time
  output : OutputLine
  record : Nat
  station : Station
  deriving DecidableEq, Repr

/-- The output lines (R126): the pulse end of each output that is pulsing. -/
structure Outputs where
  cam : PerStation (Option Time)
  fire : PerUnit (Option Time)
  deriving DecidableEq, Repr

/-! ### Track control (chapter 7) -/

/-- A track's mode (R136). -/
inductive Mode | out | live | test
  deriving DecidableEq, Repr

/-- A station's flash policy (R90); `other` is an image byte that names none of the three. -/
inductive Policy | none | required | preferred | other
  deriving DecidableEq, Repr

/-- The settings of a track's block (R139, R179). -/
structure TrackConfig where
  xW1 : Nat
  xW2 : Nat
  xHA : Nat
  xHB : Nat
  activeHigh : PerInput Bool
  nFilt : PerInput Nat
  tStuck : Nat
  m : Nat
  lMin : Nat
  lMax : Nat
  wMax : Nat
  tQuiet : Nat
  cTol : Nat
  deriving DecidableEq, Repr

/-- The settings of a station's block (R90, R139). -/
structure StationConfig where
  enabled : Bool
  policy : Policy
  flashSet : BitVec 6
  x : Nat
  delta : Nat
  pulse : Nat
  spacing : Nat
  deriving DecidableEq, Repr

/-- The settings of a flash unit's block (R140). -/
structure UnitConfig where
  enabled : Bool
  recharge : Nat
  deriving DecidableEq, Repr

/-- A track snapshot (R139): the track's settings, T_SETUP, and the settings of each station whose block names the track. -/
structure TrackSnapshot where
  config : TrackConfig
  tSetup : Nat
  stations : PerStation (Option StationConfig)
  deriving DecidableEq, Repr

/-- An injected edge (R145). -/
structure InjectedEdge where
  input : Input
  active : Bool
  time : Time
  deriving DecidableEq, Repr

/-- A track control (R136). -/
structure TrackControl where
  mode : Mode
  snapshot : Option TrackSnapshot
  injections : List InjectedEdge
  deriving DecidableEq, Repr

/-! ### Client ports (chapter 8) -/

/-- A reply in the reply slot (R150): its bytes, and whether it is in output or waiting. -/
structure Reply where
  bytes : List Byte
  inOutput : Bool
  deriving DecidableEq, Repr

/-- The message in progress (R150): its bytes and the position of the byte in the output register. -/
structure Message where
  bytes : List Byte
  position : Nat
  isReply : Bool
  deriving DecidableEq, Repr

/-- A port's attendance (R159). -/
inductive Attendance | attended | lapsed
  deriving DecidableEq, Repr

/-- A client port (R150). -/
structure Port where
  /-- The port is IN_RESET: its PRST_N is asserted. -/
  inReset : Bool
  holder : Option Byte
  assembler : List Byte
  holding : Bool
  overrun : Bool
  reply : Option Reply
  queue : List (List Byte)
  dropped : Nat
  inProgress : Option Message
  outReg : Option Byte
  trackMask : BitVec 2
  classMask : BitVec 5
  attendance : Attendance
  attendAt : Option Time
  /-- A frame of this port is being performed (R155, step 1); false between events (the model's own field). -/
  executing : Bool
  /-- The byte driven on PD by the last data read taken (the model's own field, R151). -/
  lastRead : Byte
  deriving DecidableEq, Repr

/-! ### Fault capture (chapter 9) -/

/-- The nine fault kinds, in the order of their flag bits (R169, R178). -/
inductive FaultKind
  | wheelStuck | axleMismatch | headBlocked | tableFull | listFull | farUnmatched | reversal | storeInvalid | storeWrite
  deriving DecidableEq, Repr

/-- The input or record a fault names (R169). -/
inductive FaultItem
  | none
  | input (i : Input)
  | record (number : Nat)
  deriving DecidableEq, Repr

/-- A raised fault's four items (R169). -/
structure RaisedFault where
  kind : FaultKind
  track : Option Track
  item : FaultItem
  time : Time
  deriving DecidableEq, Repr

/-- Fault capture (R169): the sticky flags and the held fault record. -/
structure FaultCapture where
  flags : BitVec 9
  held : Option RaisedFault
  deriving DecidableEq, Repr

/-! ### Configuration store and maintenance line (chapter 10) -/

/-- A 512-byte array as a list of (address, byte) pairs in one canonical form (Sys2Proof.Machine.Memory.wf): an unlisted address
reads as 0x00. -/
abbrev Memory := List Host.Cell

/-- The access states of the maintenance line (R175). -/
inductive Access | waitingCode | open | shut
  deriving DecidableEq, Repr

/-- The parser of the maintenance line (R174): idle, or the part of a command received so far. -/
inductive Parser
  | idle
  | addrHi (write : Bool)
  | addrLo (write : Bool) (hi : Byte)
  | data (addr : BitVec 10)
  deriving DecidableEq, Repr

/-- What the part drives on MLINE (R173): a byte or a break. -/
inductive LineItem
  | byte (b : Byte)
  | lineBreak
  deriving DecidableEq, Repr

/-- A commit in flight (R176): the page being written, when it ends, and the bytes read for it at its start. -/
structure CommitWrite where
  page : Nat
  pageEndAt : Time
  bytes : List Byte
  deriving DecidableEq, Repr

/-- The maintenance line (R173 to R177). -/
structure Maintenance where
  access : Access
  parser : Parser
  lastAddress : BitVec 10
  /-- Code bytes collected, in the order received. -/
  code : List Byte
  latch : Time
  commit : Option CommitWrite
  /-- What the part has driven on MLINE since the last reset, oldest first (the model's own field). -/
  sent : List LineItem
  deriving DecidableEq, Repr

/-! ### The whole part -/

/-- The state of the part and the queue of commands waiting. -/
structure State where
  clock : Clock
  inputs : PerTrack (PerInput Conditioner)
  passages : PerTrack (Option Passage)
  /-- The passage number counter (R22). -/
  nextPassage : Nat
  heads : PerTrack (PerBeam HeadUnit)
  table : RecordTable
  stations : PerStation Occupancy
  units : PerUnit FlashUnit
  inhibit : Inhibit
  triggers : List Entry
  outputs : Outputs
  tracks : PerTrack TrackControl
  unitSnapshot : Option (PerUnit UnitConfig)
  ports : PerPort Port
  /-- The binding table (R150). -/
  bindings : PerStation (Option PortId)
  faults : FaultCapture
  store : Memory
  image : Memory
  maint : Maintenance
  /-- How many open choices have been made: the argument that makes the free values of Config fresh (the model's own field). -/
  choices : Nat
  /-- The commands waiting, first in, first out. -/
  pending : List Instr
  deriving DecidableEq, Repr

/-! ### Updates: one per field -/

/-- The state with `clock` replaced. -/
def State.setClock (s : State) (x : Clock) : State := { s with clock := x }

/-- The state with `inputs` replaced. -/
def State.setInputs (s : State) (x : PerTrack (PerInput Conditioner)) : State := { s with inputs := x }

/-- The state with `passages` replaced. -/
def State.setPassages (s : State) (x : PerTrack (Option Passage)) : State := { s with passages := x }

/-- The state with `nextPassage` replaced. -/
def State.setNextPassage (s : State) (x : Nat) : State := { s with nextPassage := x }

/-- The state with `heads` replaced. -/
def State.setHeads (s : State) (x : PerTrack (PerBeam HeadUnit)) : State := { s with heads := x }

/-- The state with `table` replaced. -/
def State.setTable (s : State) (x : RecordTable) : State := { s with table := x }

/-- The state with `stations` replaced. -/
def State.setStations (s : State) (x : PerStation Occupancy) : State := { s with stations := x }

/-- The state with `units` replaced. -/
def State.setUnits (s : State) (x : PerUnit FlashUnit) : State := { s with units := x }

/-- The state with `inhibit` replaced. -/
def State.setInhibit (s : State) (x : Inhibit) : State := { s with inhibit := x }

/-- The state with `triggers` replaced. -/
def State.setTriggers (s : State) (x : List Entry) : State := { s with triggers := x }

/-- The state with `outputs` replaced. -/
def State.setOutputs (s : State) (x : Outputs) : State := { s with outputs := x }

/-- The state with `tracks` replaced. -/
def State.setTracks (s : State) (x : PerTrack TrackControl) : State := { s with tracks := x }

/-- The state with `unitSnapshot` replaced. -/
def State.setUnitSnapshot (s : State) (x : Option (PerUnit UnitConfig)) : State := { s with unitSnapshot := x }

/-- The state with `ports` replaced. -/
def State.setPorts (s : State) (x : PerPort Port) : State := { s with ports := x }

/-- The state with `bindings` replaced. -/
def State.setBindings (s : State) (x : PerStation (Option PortId)) : State := { s with bindings := x }

/-- The state with `faults` replaced. -/
def State.setFaults (s : State) (x : FaultCapture) : State := { s with faults := x }

/-- The state with `store` replaced. -/
def State.setStore (s : State) (x : Memory) : State := { s with store := x }

/-- The state with `image` replaced. -/
def State.setImage (s : State) (x : Memory) : State := { s with image := x }

/-- The state with `maint` replaced. -/
def State.setMaint (s : State) (x : Maintenance) : State := { s with maint := x }

/-- The state with `choices` replaced. -/
def State.setChoices (s : State) (x : Nat) : State := { s with choices := x }

/-- The state with `pending` replaced. -/
def State.setPending (s : State) (x : List Instr) : State := { s with pending := x }

/-- The reasons a command could stop the machine with a fault. There is none: every rule of the manual gives every command an
effect in every state, and the part's own faults (R169) are reports that stop nothing. -/
inductive Fault
  deriving DecidableEq, Repr

/-- The reasons a command could be refused by the model. -/
inductive Refusal
  /-- The command has no meaning yet, raised by exec's arm for it and by nothing else. No arm raises it: every command has its
  meaning. Safe. -/
  | notModelled (mnemonic : String)
  deriving DecidableEq, Repr

/-! ### State after reset -/

/-- A conditioner after reset (R18), with its pin at the level `raw`. -/
def Conditioner.fresh (raw : Bool) : Conditioner :=
  { raw := raw, sampleTaken := false, pin := .inactive, filter := none, stuckAt := none, injection := .inactive,
    injectionStuckAt := none }

/-- A head detector unit after reset (R70). -/
def HeadUnit.fresh : HeadUnit := { state := .clear, role := .none, pendingRole := none }

/-- A station's occupancy after reset (R116). -/
def Occupancy.fresh : Occupancy := { lastFire := none, ageOutAt := none }

/-- A flash unit after reset (R116). -/
def FlashUnit.fresh : FlashUnit := { state := .ready, lastFire := none, chargeAt := none, ageOutAt := none, bookings := [] }

/-- A track control after reset (R149). -/
def TrackControl.fresh : TrackControl := { mode := .out, snapshot := none, injections := [] }

/-- A client port after reset (R160), IN_RESET or RUNNING by the level of its PRST_N. -/
def Port.fresh (inReset : Bool) : Port :=
  { inReset := inReset, holder := none, assembler := [], holding := false, overrun := false, reply := none, queue := [],
    dropped := 0, inProgress := none, outReg := none, trackMask := 0, classMask := 0, attendance := .attended,
    attendAt := none, executing := false, lastRead := 0 }

/-- The maintenance line after reset (R177), in the given access state. -/
def Maintenance.fresh (access : Access) : Maintenance :=
  { access := access, parser := .idle, lastAddress := 0x3FF, code := [], latch := 0, commit := none, sent := [] }

/-- The part right after power-on, with RST_N asserted (R2, R134 and the reset rule of each chapter). The values the manual does
not give (pin levels, CLKSEL before its first sampling, the contents of store and image) are those of
notes/assumptions/3.md. -/
def State.reset : State :=
  { clock := { power := .inReset, clksel := 0, refPhase := 0, tb := 0, loadFailed := false }
    inputs := .tabulate fun _ => .tabulate fun _ => .fresh true
    passages := .tabulate fun _ => none
    nextPassage := 1
    heads := .tabulate fun _ => .tabulate fun _ => .fresh
    table := { records := [], next := 1 }
    stations := .tabulate fun _ => .fresh
    units := .tabulate fun _ => .fresh
    inhibit := { pin := false, asserted := false, sampleTaken := false }
    triggers := []
    outputs := { cam := .tabulate fun _ => none, fire := .tabulate fun _ => none }
    tracks := .tabulate fun _ => .fresh
    unitSnapshot := none
    ports := .tabulate fun _ => .fresh false
    bindings := .tabulate fun _ => none
    faults := { flags := 0, held := none }
    store := []
    image := []
    maint := .fresh .waitingCode
    choices := 0
    pending := [] }

end Sys2Proof.Machine
end

