-- ==== Sys2Proof/Machine/Memory.lean ====
section
/-! DEFINITION. The two 512-byte arrays, store and working image (R172): reading and writing a byte, and the canonical form. -/

namespace Sys2Proof.Machine

/-- The number of bytes of the store and of the working image (R172). -/
def imageSize : Nat := 512

/-- The byte at an address: 0x00 where nothing is listed. -/
def Memory.read (m : Memory) (addr : Nat) : Byte :=
  match m with
  | [] => 0
  | (a, b) :: rest => if a = addr then b else Memory.read rest addr

/-- The array with the byte at an address replaced, in the canonical form: writing 0x00 unlists the address. -/
def Memory.write (m : Memory) (addr : Nat) (b : Byte) : Memory :=
  match m with
  | [] => if b = 0 then [] else [(addr, b)]
  | (a, x) :: rest =>
    if addr < a then
      if b = 0 then (a, x) :: rest else (addr, b) :: (a, x) :: rest
    else if addr = a then
      if b = 0 then rest else (addr, b) :: rest
    else (a, x) :: Memory.write rest addr b

/-- The canonical form: addresses strictly rising, all below 0x200, and no entry equal to the 0x00 an unlisted address reads as. -/
abbrev Memory.wf (m : Memory) : Prop :=
  m.Pairwise (fun c d => c.1 < d.1) ∧ ∀ c ∈ m, c.1 < imageSize ∧ c.2 ≠ 0

/-- The bytes at `n` consecutive addresses. -/
def Memory.readRange (m : Memory) (addr n : Nat) : List Byte :=
  (List.range n).map fun k => Memory.read m (addr + k)

/-- A big-endian field of `n` bytes (1.7). -/
def Memory.field (m : Memory) (addr n : Nat) : Nat :=
  (Memory.readRange m addr n).foldl (fun acc b => acc * 256 + b.toNat) 0

/-- The checksum: the sum of bytes 0x000 … 0x1FD modulo 65 536 (R172). -/
def checksumOf (m : Memory) : Nat :=
  ((Memory.readRange m 0 0x1FE).map BitVec.toNat).sum % 65536

/-- The checksum agrees with bytes 0x1FE and 0x1FF (R172). -/
def checksumMatches (m : Memory) : Bool :=
  checksumOf m == Memory.field m 0x1FE 2

end Sys2Proof.Machine
end

