-- ==== Sys2Proof/Machine/Operands.lean ====
section
/-! DEFINITION. Operands: time arithmetic modulo 2^32 (1.5, R3), the codes of R178 read from and written as bytes, and the settings read
from the working image (R179). -/

namespace Sys2Proof.Machine

/-! ### Times (1.5, R3) -/

/-- The signed difference B − A: the value in −2^31 … 2^31 − 1 congruent to B − A modulo 2^32. -/
def signedDiff (b a : Time) : Int := (b - a).toInt

/-- B is after A: (B − A) mod 2^32 lies in 1 … 2^31 − 1. -/
def isAfter (b a : Time) : Bool := 0 < signedDiff b a

/-- A time plus an interval, modulo 2^32. -/
def plus (t : Time) (n : Nat) : Time := t + BitVec.ofNat 32 n

/-- A time less an interval, modulo 2^32. -/
def minus (t : Time) (n : Nat) : Time := t - BitVec.ofNat 32 n

/-- How far a time lies ahead of now, modulo 2^32: the order of the trigger list (R119). -/
def ahead (x now : Time) : Nat := (x - now).toNat

/-- |A − B| by the signed difference (R99, R106). -/
def apart (a b : Time) : Nat := (signedDiff a b).natAbs

/-- A deadline for `x`, or for now where `x` is not after now (R51, R53, R66). -/
def notBefore (x now : Time) : Time := if isAfter x now then x else now

/-- One more, staying at 65 535 (R21). -/
def satSucc (n : Nat) : Nat := min (n + 1) 65535

/-- `k` more, staying at 65 535 (R21). -/
def satAdd (n k : Nat) : Nat := min (n + k) 65535

/-- The number after `n` of a passage or record counter: from 65 535 back to 1 (R22, R81). -/
def nextNumber (n : Nat) : Nat := if 65535 ≤ n then 1 else n + 1

/-! ### Multi-byte quantities, most significant byte first (1.7) -/

/-- Two bytes. -/
def bytes2 (n : Nat) : List Byte := [.ofNat 8 (n / 256), .ofNat 8 n]

/-- Three bytes. -/
def bytes3 (n : Nat) : List Byte := [.ofNat 8 (n / 65536), .ofNat 8 (n / 256), .ofNat 8 n]

/-- Four bytes. -/
def bytes4 (n : Nat) : List Byte := [.ofNat 8 (n / 16777216), .ofNat 8 (n / 65536), .ofNat 8 (n / 256), .ofNat 8 n]

/-- A TB value. -/
def timeBytes (t : Time) : List Byte := bytes4 t.toNat

/-- A TB value that may be absent: absent reads 0 (R178). -/
def optTimeBytes (t : Option Time) : List Byte := timeBytes (t.getD 0)

/-- The value of bytes, most significant first. -/
def valueOf (bytes : List Byte) : Nat := bytes.foldl (fun acc b => acc * 256 + b.toNat) 0

/-- A presence or flag bit as a number. -/
def bit (b : Bool) : Nat := if b then 1 else 0

/-! ### Codes (R178) -/

/-- Track number. -/
def trackCode : Track → Nat
  | .t0 => 0
  | .t1 => 1

/-- The track a byte names: 0 or 1. -/
def trackOf (b : Byte) : Option Track :=
  if b = 0 then some .t0 else if b = 1 then some .t1 else none

/-- Mode code. -/
def modeCode : Mode → Nat
  | .out => 0
  | .live => 1
  | .test => 2

/-- The mode a byte names. -/
def modeOf (b : Byte) : Option Mode :=
  if b = 0 then some .out else if b = 1 then some .live else if b = 2 then some .test else none

/-- Direction code. -/
def directionCode : Direction → Nat
  | .a => 0
  | .b => 1

/-- Input code. -/
def inputCode : Input → Nat
  | .wheel .w1 => 0
  | .wheel .w2 => 1
  | .beam .ha => 2
  | .beam .hb => 3

/-- The input a two-bit code names. -/
def inputOf (c : BitVec 2) : Input :=
  if c = 0 then .wheel .w1 else if c = 1 then .wheel .w2 else if c = 2 then .beam .ha else .beam .hb

/-- Station number. -/
def stationCode : Station → Nat
  | .s0 => 0 | .s1 => 1 | .s2 => 2 | .s3 => 3 | .s4 => 4 | .s5 => 5 | .s6 => 6 | .s7 => 7

/-- The station a byte names: 0 to 7. -/
def stationOf (b : Byte) : Option Station :=
  Station.all.find? fun st => b.toNat == stationCode st

/-- Flash unit number. -/
def unitCode : FlashId → Nat
  | .u0 => 0 | .u1 => 1 | .u2 => 2 | .u3 => 3 | .u4 => 4 | .u5 => 5

/-- Port number. -/
def portCode : PortId → Nat
  | .p0 => 0 | .p1 => 1 | .p2 => 2 | .p3 => 3

/-- The port a byte names: 0 to 3. -/
def portOf (b : Byte) : Option PortId :=
  PortId.all.find? fun p => b.toNat == portCode p

/-- Head detector state code. -/
def headStateCode : HeadState → Nat
  | .clear => 0
  | .covered _ => 1
  | .gap _ _ _ => 2
  | .blocked => 3

/-- Role code. -/
def roleCode : Role → Nat
  | .none => 0
  | .near => 1
  | .far => 2

/-- Flash unit state code. -/
def unitStateCode : UnitState → Nat
  | .ready => 0
  | .charging => 1
  | .inhibited => 2

/-- Record state code (R179). -/
def recordStateCode : RecordState → Nat
  | .forming => 0 | .planned => 1 | .done => 2 | .spurious => 3 | .blocked => 4 | .untimed => 5 | .abandoned => 6

/-- Confirmation code (R179). -/
def confirmationCode : Confirmation → Nat
  | .none => 0 | .waiting => 1 | .matched => 2 | .missing => 3

/-- Camera outcome code (R179). -/
def cameraCode : CameraOutcome → Nat
  | .notServed => 0 | .unattended => 1 | .pending => 2 | .fired => 3 | .missedLate => 4 | .missedHorizon => 5
  | .missedBusy => 6 | .missedListFull => 7 | .conflict => 8 | .cancelled => 9

/-- Flash result code (R179). -/
def flashCode : FlashResult → Nat
  | .notUsed => 0 | .suppressed => 1 | .booked => 2 | .fired => 3 | .unavailable => 4 | .cancelled => 5

/-- Fault kind as its flag's bit number (R178). -/
def faultCode : FaultKind → Nat
  | .wheelStuck => 0 | .axleMismatch => 1 | .headBlocked => 2 | .tableFull => 3 | .listFull => 4 | .farUnmatched => 5
  | .reversal => 6 | .storeInvalid => 7 | .storeWrite => 8

/-- A flash set or fired mask holds a unit: bit u for unit u (R179). -/
def inSet (set : BitVec 6) (u : FlashId) : Bool := set.getLsbD (unitCode u)

/-- The units of a flash set in ascending number. -/
def unitsOf (set : BitVec 6) : List FlashId := FlashId.all.filter (inSet set)

/-- A mask with a unit added. -/
def addUnit (mask : BitVec 6) (u : FlashId) : BitVec 6 := mask ||| (1#6 <<< unitCode u)

/-! ### Settings in the working image (R179) -/

/-- The base of a track's block. -/
def trackBase : Track → Nat
  | .t0 => 0x010
  | .t1 => 0x050

/-- The base of a station's block. -/
def stationBase (st : Station) : Nat := 0x090 + 16 * stationCode st

/-- The base of a flash unit's block. -/
def unitBase (u : FlashId) : Nat := 0x110 + 8 * unitCode u

/-- The active level of an input as the image holds it: 0 means low, any other value high (R6, R141). -/
def imageActiveHigh (m : Memory) (t : Track) (i : Input) : Bool :=
  Memory.read m (trackBase t + 0x08 + inputCode i) != 0

/-- A track's block as the image holds it. -/
def imageTrack (m : Memory) (t : Track) : TrackConfig :=
  { xW1 := Memory.field m (trackBase t) 2
    xW2 := Memory.field m (trackBase t + 0x02) 2
    xHA := Memory.field m (trackBase t + 0x04) 2
    xHB := Memory.field m (trackBase t + 0x06) 2
    activeHigh := .tabulate (imageActiveHigh m t)
    nFilt := .tabulate fun i => Memory.field m (trackBase t + 0x0C + 2 * inputCode i) 2
    tStuck := Memory.field m (trackBase t + 0x14) 2
    m := Memory.field m (trackBase t + 0x16) 2
    lMin := Memory.field m (trackBase t + 0x18) 2
    lMax := Memory.field m (trackBase t + 0x1A) 2
    wMax := Memory.field m (trackBase t + 0x1C) 4
    tQuiet := Memory.field m (trackBase t + 0x20) 2
    cTol := Memory.field m (trackBase t + 0x22) 4 }

/-- The nearer end of a range for a value outside it. -/
def clamp (lo hi n : Nat) : Nat := max lo (min hi n)

/-- The values used of a track block while its track is OUT (the tables of R6 and R47). -/
def clampTrack (c : TrackConfig) : TrackConfig :=
  { c with
    nFilt := .tabulate fun i => min 1023 (c.nFilt.get i)
    tStuck := clamp 50 5000 c.tStuck
    m := min 1000 c.m
    wMax := clamp 1000 2000000 c.wMax
    cTol := clamp 100 100000 c.cTol }

/-- The policy a byte names. -/
def policyOf (b : Byte) : Policy :=
  if b = 0 then .none else if b = 1 then .required else if b = 2 then .preferred else .other

/-- A station's block as the image holds it. The unused bits 6 and 7 of the flash set read 0 (R178). -/
def imageStation (m : Memory) (st : Station) : StationConfig :=
  { enabled := Memory.read m (stationBase st) != 0
    policy := policyOf (Memory.read m (stationBase st + 2))
    flashSet := (Memory.read m (stationBase st + 3)).setWidth 6
    x := Memory.field m (stationBase st + 4) 2
    delta := Memory.field m (stationBase st + 6) 2
    pulse := Memory.field m (stationBase st + 8) 2
    spacing := Memory.field m (stationBase st + 0x0A) 4 }

/-- The track a station's block names; other than 0 or 1 names neither. -/
def imageStationTrack (m : Memory) (st : Station) : Option Track := trackOf (Memory.read m (stationBase st + 1))

/-- A flash unit's block as the image holds it. -/
def imageUnit (m : Memory) (u : FlashId) : UnitConfig :=
  { enabled := Memory.read m (unitBase u) != 0
    recharge := Memory.field m (unitBase u + 4) 4 }

/-- A track's start-live flag; the unused bits 2 to 7 of the byte are no flags (R178). -/
def startLiveFlag (m : Memory) (t : Track) : Bool := (Memory.read m 0x001).getLsbD (trackCode t)

/-- A port's T_ATTEND. -/
def imageAttend (m : Memory) (p : PortId) : Nat := (Memory.read m (0x004 + portCode p)).toNat

/-- A track snapshot as taken from the working image (R139). -/
def takeSnapshot (m : Memory) (t : Track) : TrackSnapshot :=
  { config := imageTrack m t
    tSetup := Memory.field m 0x002 2
    stations := .tabulate fun st => if imageStationTrack m st = some t then some (imageStation m st) else none }

/-- A flash unit snapshot as taken from the working image (R140). -/
def takeUnits (m : Memory) : PerUnit UnitConfig := .tabulate (imageUnit m)

/-! ### Settings in use -/

/-- The mode of a track. -/
def State.mode (s : State) (t : Track) : Mode := (s.tracks.get t).mode

/-- The settings of a track in use: the image's, clamped, while it is OUT, and the snapshot's while it is LIVE or TEST (R6, R47). -/
def State.config (s : State) (t : Track) : TrackConfig :=
  match (s.tracks.get t).mode, (s.tracks.get t).snapshot with
  | .out, _ => clampTrack (imageTrack s.image t)
  | _, some snap => snap.config
  | _, none => imageTrack s.image t

/-- The snapshot a track plans with; a track without one, which never plans, reads the image (notes/assumptions/12.md). -/
def State.planSnapshot (s : State) (t : Track) : TrackSnapshot := (s.tracks.get t).snapshot.getD (takeSnapshot s.image t)

/-- The flash unit settings in force; while none is in force, which no plan or firing meets, the image's
(notes/assumptions/12.md). -/
def State.unitConfig (s : State) (u : FlashId) : UnitConfig := (s.unitSnapshot.getD (takeUnits s.image)).get u

/-- The settings of a station in a track's snapshot, if the station is enabled there. -/
def State.enabledIn (s : State) (t : Track) (st : Station) : Option StationConfig :=
  ((s.tracks.get t).snapshot.bind fun snap => snap.stations.get st).filter (·.enabled)

/-- The settings a station's firing uses: those of the snapshot in which it is enabled (R139), of which there is at most one; a
station enabled in none, which has no entry to fire, reads the image (notes/assumptions/12.md). -/
def State.stationInForce (s : State) (st : Station) : StationConfig :=
  ((s.enabledIn .t0 st).or (s.enabledIn .t1 st)).getD (imageStation s.image st)

/-- The sensor spacing S_w = x_W2 − x_W1 (R19). -/
def sensorSpacing (c : TrackConfig) : Nat := c.xW2 - c.xW1

/-- The pairing limit T_PAIR = S_w × 2 000 µs (R19). -/
def pairingLimit (c : TrackConfig) : Nat := sensorSpacing c * 2000

/-- TB now. -/
def State.now (s : State) : Time := s.clock.tb

end Sys2Proof.Machine
end

