-- ==== Sys2Proof/Machine/Flags.lean ====
section
/-! DEFINITION. The flags software sees: a port's PIF, POA and PATN outputs and its status byte (R150, R154, R157), and the sticky
fault flags (R169, R178). -/

namespace Sys2Proof.Machine

/-- PIF: the input holder holds a byte (R150). -/
def Port.pif (p : Port) : Bool := p.holder.isSome

/-- POA: the output register holds a byte (R150). -/
def Port.poa (p : Port) : Bool := p.outReg.isSome

/-- PATN: the reply slot holds a reply, or the queue a notice, or a message is in progress; released while IN_RESET (R157). -/
def Port.patn (p : Port) : Bool := !p.inReset && (p.reply.isSome || !p.queue.isEmpty || p.inProgress.isSome)

/-- The status byte, bits 0 to 7: IN_FULL, OUT_AVAIL, REPLY_PENDING, NOTICES_PENDING, LAPSED, OVERRUN, DROPPED, HOLDING
(R154, R178). It is what a status read drives; a status read changes nothing and is no command of the table. -/
def Port.statusByte (p : Port) : Byte :=
  .ofNat 8 (bit p.pif + 2 * bit p.poa + 4 * bit p.reply.isSome + 8 * bit (!p.queue.isEmpty)
    + 16 * bit (p.attendance == .lapsed) + 32 * bit p.overrun + 64 * bit (p.dropped != 0) + 128 * bit p.holding)

/-- The flag bit of a fault kind (R178). -/
def faultBit (k : FaultKind) : BitVec 9 := 1#9 <<< faultCode k

/-- A class of routed notices, by its class mask bit (R164, R178). -/
inductive NoticeClass | passage | plan | result | record | fault
  deriving DecidableEq, Repr

/-- The class mask bit of a class. -/
def classBit : NoticeClass → Nat
  | .passage => 0 | .plan => 1 | .result => 2 | .record => 3 | .fault => 4

/-- The port's class mask holds a class. -/
def Port.wantsClass (p : Port) (c : NoticeClass) : Bool := p.classMask.getLsbD (classBit c)

/-- The port's track mask holds a track. -/
def Port.wantsTrack (p : Port) (t : Track) : Bool := p.trackMask.getLsbD (trackCode t)

/-- The camera outcome is final: any but PENDING (R74). -/
def CameraOutcome.final (c : CameraOutcome) : Bool := c != .pending

/-- The flash result is final: any but BOOKED (R75). -/
def FlashResult.final (f : FlashResult) : Bool := f != .booked

/-- A station entry is settled when both its camera outcome and its flash result are final (R75). -/
def StationEntry.settled (e : StationEntry) : Bool := e.camera.final && e.flash.final

/-- The record state is final: neither FORMING nor PLANNED (R76). -/
def RecordState.final : RecordState → Bool
  | .forming => false
  | .planned => false
  | _ => true

/-- A head detector unit is forming a head: COVERED or GAP (R46). -/
def HeadUnit.forming (h : HeadUnit) : Bool :=
  match h.state with
  | .covered _ => true
  | .gap _ _ _ => true
  | _ => false

end Sys2Proof.Machine
end

