-- ==== Sys2Proof/Machine/Layouts.lean ====
section
/-! DEFINITION. The byte layouts of chapter 11: notice bodies and reply bodies (R178, R179). -/

namespace Sys2Proof.Machine

/-! ### Kinds and result codes (R178) -/

/-- The result codes of replies. -/
inductive Result
  | accepted | malformed | unknown | badArg | held | notBound | busy | configInvalid | notFound | notInTest | full | tagged
  | noPassage | unreachable
  deriving DecidableEq, Repr

/-- The byte of a result code. -/
def resultCode : Result → Byte
  | .accepted => 0x00 | .malformed => 0x01 | .unknown => 0x02 | .badArg => 0x03 | .held => 0x04 | .notBound => 0x05
  | .busy => 0x06 | .configInvalid => 0x07 | .notFound => 0x08 | .notInTest => 0x09 | .full => 0x0A | .tagged => 0x0B
  | .noPassage => 0x0C | .unreachable => 0x0D

/-- A notice as its owner offers it: kind and body. The port adds the dropped count and the length (R158, R178). -/
structure Notice where
  kind : Byte
  body : List Byte
  deriving DecidableEq, Repr

/-! ### Notice bodies (R178) -/

/-- PASSAGE_OPENED (R23). -/
def passageOpenedNotice (t : Track) (p : Passage) : Notice :=
  { kind := 0x40
    body := bytes2 p.number ++ [.ofNat 8 (trackCode t), .ofNat 8 (directionCode p.direction)] ++ timeBytes p.openTime }

/-- PASSAGE_CLOSED (R42): the passage summary. -/
def passageClosedNotice (t : Track) (p : Passage) (closeTime : Time) : Notice :=
  { kind := 0x41
    body := bytes2 p.number
      ++ bytes3 (p.vEst.getD 0 + 1048576 * trackCode t + 2097152 * directionCode p.direction + 4194304 * bit p.reversed
          + 8388608 * bit p.tag.isSome)
      ++ timeBytes p.openTime ++ timeBytes closeTime ++ bytes2 p.leading ++ bytes2 p.trailing
      ++ [.ofNat 8 (min 255 p.accepted), .ofNat 8 (min 255 p.rejected), .ofNat 8 (min 255 p.heads)]
      ++ bytes4 (p.tag.getD 0).toNat }

/-- HEAD_PLANNED (R102). -/
def headPlannedNotice (record : Nat) (st : Station) (trigger : Time) (flash : FlashResult) : Notice :=
  { kind := 0x42
    body := bytes2 record ++ [.ofNat 8 (stationCode st)] ++ timeBytes trigger ++ [.ofNat 8 (flashCode flash)] }

/-- The outcomes byte: camera outcome in the high nibble, flash result in the low (R179). -/
def outcomesByte (e : StationEntry) : Byte := .ofNat 8 (16 * cameraCode e.camera + flashCode e.flash)

/-- STATION_RESULT (R125). -/
def stationResultNotice (record : Nat) (e : StationEntry) : Notice :=
  { kind := 0x43
    body := bytes2 record ++ [.ofNat 8 (stationCode e.station), outcomesByte e, e.fired.setWidth 8] }

/-- A residual as two bytes, two's complement (R179). -/
def residualBytes (r : Int) : List Byte := bytes2 (BitVec.ofInt 16 r).toNat

/-- The state-and-confirmation byte (R179). -/
def stateByte (r : HeadRecord) : Byte := .ofNat 8 (16 * recordStateCode r.state + confirmationCode r.confirmation)

/-- RECORD_FINAL (R80): the residual reads 0 unless MATCHED. -/
def recordFinalNotice (r : HeadRecord) : Notice :=
  { kind := 0x44, body := bytes2 r.number ++ [stateByte r] ++ residualBytes (r.residual.getD 0) }

/-- The FAULT item: the input code, the record number, or 0 (R178). -/
def itemValue : FaultItem → Nat
  | .none => 0
  | .input i => inputCode i
  | .record n => n

/-- A track byte, 0xFF for none (R178). -/
def trackByte (t : Option Track) : Byte :=
  match t with
  | none => 0xFF
  | some t => .ofNat 8 (trackCode t)

/-- A fault's eight bytes: kind, track, item, time (R178). -/
def faultBytes (f : RaisedFault) : List Byte :=
  [.ofNat 8 (faultCode f.kind), trackByte f.track] ++ bytes2 (itemValue f.item) ++ timeBytes f.time

/-- FAULT (R169). -/
def faultNotice (f : RaisedFault) : Notice := { kind := 0x45, body := faultBytes f }

/-- RELAY (R168): the source port and the relayed bytes. -/
def relayNotice (source : PortId) (bytes : List Byte) : Notice := { kind := 0x46, body := .ofNat 8 (portCode source) :: bytes }

/-! ### Reply bodies (R178, R179) -/

/-- A 7-byte station slot of a READ_RECORD body (R179). -/
def recordSlot (e : StationEntry) : List Byte :=
  [.ofNat 8 (stationCode e.station + 128 * bit e.trigger.isSome), outcomesByte e] ++ optTimeBytes e.trigger
    ++ [e.fired.setWidth 8]

/-- The 89-byte READ_RECORD body (R179). -/
def recordBody (r : HeadRecord) : List Byte :=
  let head := bytes2 r.number
    ++ [.ofNat 8 (trackCode r.track + 2 * directionCode r.direction + 4 * bit r.test + 16 * r.entries.length)]
    ++ bytes2 r.passage
    ++ [stateByte r, .ofNat 8 (r.strips + 16 * bit r.tTrail.isSome + 32 * bit r.expectedFar.isSome + 64 * bit r.residual.isSome
        + 128 * bit r.tag.isSome)]
    ++ timeBytes r.tLead ++ optTimeBytes r.tTrail ++ bytes3 r.width ++ bytes2 r.length ++ bytes3 r.speed
    ++ optTimeBytes r.expectedFar ++ residualBytes (r.residual.getD 0) ++ bytes4 (r.tag.getD 0).toNat
  let slots := r.entries.flatMap recordSlot
  head ++ (slots ++ List.replicate (56 - slots.length) 0)

/-- The passage unit's state code: IDLE, RUNNING or REVERSED (R20, R178). -/
def passageStateCode (p : Option Passage) : Nat :=
  match p with
  | none => 0
  | some p => if p.reversed then 2 else 1

/-- A head detector unit's byte: state in the low nibble, role in effect in the high nibble (R178). -/
def headUnitByte (h : HeadUnit) : Byte := .ofNat 8 (headStateCode h.state + 16 * roleCode h.role)

/-- The passage view of R44, as READ_TRACK lays it out from the passage number to the axle queue's depth: every field reads 0 while
the unit is IDLE. -/
def passageView (p : Option Passage) : List Byte :=
  match p with
  | none => List.replicate 31 0
  | some p =>
    bytes2 p.number
      ++ [.ofNat 8 (directionCode p.direction + 2 * bit p.vEst.isSome + 4 * bit p.tag.isSome)]
      ++ timeBytes p.openTime ++ bytes2 p.leading ++ bytes2 p.trailing ++ bytes2 p.accepted ++ bytes2 p.rejected
      ++ bytes3 (p.vEst.getD 0) ++ [.ofNat 8 p.discord, .ofNat 8 p.orphan] ++ bytes2 p.heads ++ timeBytes p.lastEdge
      ++ bytes4 (p.tag.getD 0).toNat ++ [.ofNat 8 p.queue.length]

/-- The 36-byte READ_TRACK body (R167, R178). -/
def trackBody (s : State) (t : Track) : List Byte :=
  [.ofNat 8 (modeCode (s.mode t)), .ofNat 8 (passageStateCode (s.passages.get t))]
    ++ passageView (s.passages.get t)
    ++ [headUnitByte ((s.heads.get t).get .ha), headUnitByte ((s.heads.get t).get .hb),
        .ofNat 8 (s.tracks.get t).injections.length]

/-- A 5-byte station slot of a READ_OUTPUTS body: the holding port in bits 0–1, bound in bit 6, last fire present in bit 7, then
the last fire (R178). -/
def stationSlot (s : State) (st : Station) : List Byte :=
  let fire := (s.stations.get st).lastFire
  let holder := match s.bindings.get st with
    | none => 0
    | some p => 64 + portCode p
  .ofNat 8 (holder + 128 * bit fire.isSome) :: optTimeBytes fire

/-- A 5-byte unit slot of a READ_OUTPUTS body: the state in bits 0–1, the booking count in bits 4–6, last fire present in bit 7,
then the last fire (R178). -/
def unitSlot (s : State) (u : FlashId) : List Byte :=
  let unit := s.units.get u
  .ofNat 8 (unitStateCode unit.state + 16 * unit.bookings.length + 128 * bit unit.lastFire.isSome) :: optTimeBytes unit.lastFire

/-- The 70-byte READ_OUTPUTS body (R115, R178). -/
def outputsBody (s : State) : List Byte := Station.all.flatMap (stationSlot s) ++ FlashId.all.flatMap (unitSlot s)

/-- The record numbers of a track, newest first by the creation order (R87). -/
def latestNumbers (s : State) (t : Track) : List Nat :=
  ((s.table.records.filter fun r => r.track == t).map (·.number)).reverse

/-- The LATEST_RECORDS body: the count, then the numbers (R87, R178). -/
def latestBody (s : State) (t : Track) : List Byte :=
  .ofNat 8 (latestNumbers s t).length :: (latestNumbers s t).flatMap bytes2

/-- The fault flags as two bytes (R178). -/
def flagsBytes (f : FaultCapture) : List Byte := bytes2 f.flags.toNat

/-- The 11-byte READ_FAULTS body (R170, R178). -/
def faultsBody (f : FaultCapture) : List Byte :=
  flagsBytes f ++ (match f.held with
    | none => List.replicate 9 0
    | some h => 1 :: faultBytes h)

end Sys2Proof.Machine
end

