-- ==== Sys2Proof/Machine/Ops.lean ====
section
/-! DEFINITION. The operations every block shares: offering a notice to the ports (R156, R158, R164), raising a fault (R169), and taking
several events of one TB value in an order the manual leaves open (R3). -/

namespace Sys2Proof.Machine

/-! ### One port -/

/-- A message's first byte becomes the output register's content (R156). -/
def Port.load (p : Port) (bytes : List Byte) (isReply : Bool) : Port :=
  { p with inProgress := some { bytes := bytes, position := 0, isReply := isReply }, outReg := bytes.head? }

/-- The output arbiter (R156): at a message boundary it loads the reply marked waiting, else the oldest notice, else nothing. -/
def Port.arbitrate (p : Port) : Port :=
  match p.inProgress with
  | some _ => p
  | none =>
    match p.reply.filter (fun r => !r.inOutput) with
    | some r => { p.load r.bytes true with reply := some { r with inOutput := true } }
    | none =>
      match p.queue with
      | [] => p
      | n :: rest => { p.load n false with queue := rest }

/-- A notice takes its place at the tail of the queue, with the dropped count in its second byte, and the count returns to 0
(R158). -/
def Port.enqueue (p : Port) (n : Notice) : Port :=
  { p with queue := p.queue ++ [n.kind :: .ofNat 8 p.dropped :: .ofNat 8 n.body.length :: n.body], dropped := 0 }

/-- The most notices a port's queue holds (R158). -/
def queueLimit : Nat := 32

/-- The port can queue a notice: RUNNING, ATTENDED and with room (R158). -/
def Port.canQueue (p : Port) : Bool := !p.inReset && p.attendance == .attended && p.queue.length < queueLimit

/-- A port's decision on a notice offered to it (R158), and the arbiter's loading of it at a message boundary (R156). A notice that
an execution offers to its own port waits behind the reply (R155). -/
def Port.offer (p : Port) (n : Notice) : Port :=
  if p.canQueue then
    if p.executing then p.enqueue n else (p.enqueue n).arbitrate
  else { p with dropped := min (p.dropped + 1) 255 }

/-! ### Routing and faults -/

/-- A notice is offered to every port that `named` selects (R164). -/
def State.offer (s : State) (named : PortId → Port → Bool) (n : Notice) : State :=
  s.setPorts (.tabulate fun i => if named i (s.ports.get i) then (s.ports.get i).offer n else s.ports.get i)

/-- A notice routed by track and class (R164: PASSAGE and RECORD). -/
def State.offerByTrack (s : State) (c : NoticeClass) (t : Track) (n : Notice) : State :=
  s.offer (fun _ p => p.wantsTrack t && p.wantsClass c) n

/-- A notice routed to the port that holds a binding, by class (R164: PLAN and RESULT). -/
def State.offerToHolder (s : State) (c : NoticeClass) (holder : Option PortId) (n : Notice) : State :=
  s.offer (fun i p => holder == some i && p.wantsClass c) n

/-- A fault is raised (R169): its flag is set, the held record takes it if it is empty, and a FAULT notice is offered. -/
def State.raise (s : State) (f : RaisedFault) : State :=
  (s.setFaults { flags := s.faults.flags ||| faultBit f.kind, held := s.faults.held.or (some f) }).offer
    (fun _ p => p.wantsClass .fault) (faultNotice f)

/-! ### Open choices -/

/-- The index of the next of `n` things in an order the manual leaves open, and the state with that choice used up. -/
def State.chooseIndex (s : State) (n : Nat) : Nat × State :=
  (Config.choose s.choices n % n, s.setChoices (s.choices + 1))

/-- The state after the events `acts`, each taken whole, in an order the manual leaves open. `fuel` is their number. -/
def inAnyOrder (fuel : Nat) (acts : List (State → State)) (s : State) : State :=
  match fuel, acts with
  | 0, _ => s
  | _, [] => s
  | _, [a] => a s
  | fuel + 1, acts =>
    let pick := s.chooseIndex acts.length
    inAnyOrder fuel (acts.eraseIdx pick.1) (acts.getD pick.1 id pick.2)

/-- The state after the events `acts` in an order the manual leaves open. -/
def State.takeAll (s : State) (acts : List (State → State)) : State := inAnyOrder acts.length acts s

/-- An event that only a counting part meets: before TB counts it has no effect (R2, R171). -/
def State.whenRunning (s : State) (f : State → State) : State := if s.clock.power = .running then f s else s

end Sys2Proof.Machine
end

