-- ==== Sys2Proof/Machine/Records.lean ====
section
/-! DEFINITION. The head record table (chapter 4): finding and updating records, allocation and eviction, station entries settling,
and the DONE test. -/

namespace Sys2Proof.Machine

/-- The most records the table holds (R71). -/
def tableSize : Nat := 16

/-- The record of a number, if it is in the table. -/
def State.record (s : State) (n : Nat) : Option HeadRecord := s.table.records.find? fun r => r.number == n

/-- The state with the record of a number changed by `f`; a number not in the table changes nothing (R77). -/
def State.updateRecord (s : State) (n : Nat) (f : HeadRecord → HeadRecord) : State :=
  s.setTable { s.table with records := s.table.records.map fun r => if r.number = n then f r else r }

/-- The record of this number is in the table and in this state (R77). -/
def State.recordIs (s : State) (n : Nat) (st : RecordState) : Bool :=
  match s.record n with
  | none => false
  | some r => r.state == st

/-- A record enters a final state: RECORD_FINAL is offered (R80). -/
def State.offerRecordFinal (s : State) (n : Nat) : State :=
  match s.record n with
  | none => s
  | some r => s.offerByTrack .record r.track (recordFinalNotice r)

/-- The record's state becomes the final state `st`, and RECORD_FINAL is offered. -/
def State.finishRecord (s : State) (n : Nat) (st : RecordState) : State :=
  (s.updateRecord n fun r => { r with state := st }).offerRecordFinal n

/-- The DONE condition (R79). -/
def HeadRecord.isDone (r : HeadRecord) : Bool :=
  r.state == .planned && r.confirmation != .waiting && r.entries.all StationEntry.settled

/-- The DONE test (R79). -/
def State.testDone (s : State) (n : Nat) : State :=
  match s.record n with
  | none => s
  | some r => if r.isDone then s.finishRecord n .done else s

/-! ### Allocation (R81 to R84) -/

/-- The first number from `n` on that no record of the table holds; with at most 16 records, 17 steps find it (R81). -/
def freeNumber (fuel n : Nat) (records : List HeadRecord) : Nat :=
  match fuel with
  | 0 => n
  | fuel + 1 => if records.any (fun r => r.number == n) then freeNumber fuel (nextNumber n) records else n

/-- The records after room for one more is made (R82, R84): unchanged while a slot is free, else without the oldest final record, and
none where every record is open. -/
def makeRoom (records : List HeadRecord) : Option (List HeadRecord) :=
  if records.length < tableSize then some records
  else (records.find? fun r => r.state.final).map fun old => records.erase old

/-- A new record (R52, R82). -/
def newRecord (n : Nat) (t : Track) (p : Passage) (test : Bool) (tLead : Time) : HeadRecord :=
  { number := n, track := t, direction := p.direction, passage := p.number, test := test, state := .forming, tLead := tLead,
    tTrail := none, strips := 1, width := 0, length := 0, speed := 0, confirmation := .none, expectedFar := none,
    residual := none, tag := p.tag, entries := [], confirmAt := none, overdue := false, ofOpenPassage := true }

/-- A NEAR unit's request for a record (R82): the state with the record made, and its number; none where the head is refused. -/
def State.allocate (s : State) (t : Track) (p : Passage) (tLead : Time) : Option (Nat × State) :=
  (makeRoom s.table.records).map fun room =>
    let n := freeNumber (tableSize + 1) s.table.next room
    (n, s.setTable { records := room ++ [newRecord n t p (s.mode t == .test) tLead], next := nextNumber n })

/-! ### Station entries (R73 to R75, R125) -/

/-- The record's entry for a station. -/
def HeadRecord.entryOf (r : HeadRecord) (st : Station) : Option StationEntry := r.entries.find? fun e => e.station == st

/-- The station entry of a PLANNED record changed by `f` (R77); if that settles it, STATION_RESULT is offered to `holder` (R125). -/
def State.updateEntry (s : State) (n : Nat) (st : Station) (holder : Option PortId) (f : StationEntry → StationEntry) : State :=
  match s.record n with
  | none => s
  | some r =>
    match r.entryOf st with
    | none => s
    | some e =>
      if r.state = .planned then
        let s' := s.updateRecord n fun r =>
          { r with entries := r.entries.map fun e => if e.station = st then f e else e }
        if !e.settled && (f e).settled then s'.offerToHolder .result holder (stationResultNotice n (f e)) else s'
      else s

end Sys2Proof.Machine
end

