-- ==== Sys2Proof/Machine/Triggers.lean ====
section
/-! DEFINITION. The trigger sequencer and the flash units (chapters 5 and 6): the trigger list, firing, pulses, removal without firing,
recharge and ageing, and the flash inhibit. -/

namespace Sys2Proof.Machine

/-! ### The trigger list -/

/-- The most entries the trigger list holds (R118). -/
def triggerLimit : Nat := 32

/-- An entry placed by its fire time relative to now (R119, R120). -/
def insertEntry (now : Time) (e : Entry) : List Entry → List Entry
  | [] => [e]
  | x :: rest => if ahead e.fireAt now < ahead x.fireAt now then e :: x :: rest else x :: insertEntry now e rest

/-- A booking placed by its time (R105). -/
def insertTime (now t : Time) : List Time → List Time
  | [] => [t]
  | x :: rest => if ahead t now < ahead x now then t :: x :: rest else x :: insertTime now t rest

/-- The entry is a CAMERA entry. -/
def Entry.isCamera (e : Entry) : Bool :=
  match e.output with
  | .cam _ => true
  | .fire _ => false

/-- The entry serves a record's station entry. -/
def Entry.serves (e : Entry) (n : Nat) (st : Station) : Bool := e.record == n && e.station == st

/-! ### Pulses (R126 to R128) -/

/-- The age-out interval, 2 000 000 µs (R89). -/
def ageOut : Nat := 2000000

/-- The pulse end a camera firing leaves: the later of the end held and the new one (R126, R127). -/
def pulseEndAfter (held : Option Time) (new : Time) : Time :=
  match held with
  | none => new
  | some old => if isAfter old new then old else new

/-- A camera output begins or extends a pulse. -/
def State.pulseCamera (s : State) (st : Station) (endAt : Time) : State :=
  s.setOutputs { s.outputs with cam := s.outputs.cam.modify st fun held => some (pulseEndAfter held endAt) }

/-- A fire output begins a pulse. -/
def State.pulseFlash (s : State) (u : FlashId) (endAt : Time) : State :=
  s.setOutputs { s.outputs with fire := s.outputs.fire.set u (some endAt) }

/-! ### Firing -/

/-- A camera firing's update of its station entry (R123, step 4). -/
def StationEntry.cameraFired (e : StationEntry) : StationEntry :=
  if e.camera = .pending then { e with camera := .fired } else e

/-- A flash firing's update of its station entry (R124, step 4): `last` when no other FLASH entry of it remains. -/
def StationEntry.flashFired (u : FlashId) (last : Bool) (e : StationEntry) : StationEntry :=
  { e with fired := addUnit e.fired u, flash := if last && e.flash == .booked then .fired else e.flash }

/-- CAMERA entry `e` of station `st` fires now (R123). -/
def State.fireCameraEntry (s : State) (st : Station) (e : Entry) : State :=
  let t := s.now
  let s := s.setTriggers (s.triggers.erase e)
  let s := s.pulseCamera st (plus t (s.stationInForce st).pulse)
  let s := s.setStations (s.stations.set st { lastFire := some t, ageOutAt := some (plus t ageOut) })
  (s.updateEntry e.record e.station (s.bindings.get e.station) StationEntry.cameraFired).testDone e.record

/-- The flash unit's record after a firing at `t` (R108). -/
def FlashUnit.afterFire (f : FlashUnit) (t : Time) (recharge : Nat) : FlashUnit :=
  { state := .charging, lastFire := some t, chargeAt := some (plus t recharge), ageOutAt := some (plus t ageOut),
    bookings := f.bookings.erase t }

/-- FLASH entry `e` of unit `u` fires now (R124). -/
def State.fireFlashEntry (s : State) (u : FlashId) (e : Entry) : State :=
  let t := s.now
  let s := s.setTriggers (s.triggers.erase e)
  let s := s.pulseFlash u (plus t 50)
  let s := s.setUnits (s.units.modify u fun f => f.afterFire t (s.unitConfig u).recharge)
  let last := !(s.triggers.any fun x => !x.isCamera && x.serves e.record e.station)
  (s.updateEntry e.record e.station (s.bindings.get e.station) (StationEntry.flashFired u last)).testDone e.record

/-- The entry of an output whose fire time is now (R121). -/
def State.dueEntry (s : State) (o : OutputLine) : Option Entry :=
  s.triggers.find? fun e => e.output == o && e.fireAt == s.now

/-! ### Removal without firing (R129) -/

/-- The bookings of the removed FLASH entries are released (R111). -/
def releaseBookings (gone : List Entry) (units : PerUnit FlashUnit) : PerUnit FlashUnit :=
  gone.foldl (fun units e =>
    match e.output with
    | .cam _ => units
    | .fire u => units.modify u fun f => { f with bookings := f.bookings.erase e.fireAt }) units

/-- A station entry after the removal of its camera entry, of its flash entries, or of both (R129). -/
def StationEntry.cancelled (camera flash : Bool) (e : StationEntry) : StationEntry :=
  { e with
    camera := if camera && e.camera == .pending then .cancelled else e.camera
    flash := if flash && e.flash == .booked then .cancelled else e.flash }

/-- The entry cancelled update of one station entry, for the entries in `gone` that serve it (R129). `lost` names the port whose
binding has just been lost, if that is the cause (R125); `testsDone` says whether the DONE test follows. -/
def State.cancelStation (s : State) (gone : List Entry) (lost : Option PortId) (testsDone : Bool) (n : Nat) (st : Station) : State :=
  let mine := gone.filter fun e => e.serves n st
  if mine.isEmpty then s
  else
    let s' := s.updateEntry n st (lost.or (s.bindings.get st))
      (StationEntry.cancelled (mine.any Entry.isCamera) (mine.any fun e => !e.isCamera))
    if testsDone then s'.testDone n else s'

/-- Every entry that `sel` selects is removed without firing (R129): the records in creation order, the stations of each in ascending
number. -/
def State.removeEntries (s : State) (sel : Entry → Bool) (lost : Option PortId) (testsDone : Bool) : State :=
  let gone := s.triggers.filter sel
  let s := s.setTriggers (s.triggers.filter fun e => !sel e)
  let s := s.setUnits (releaseBookings gone s.units)
  (s.table.records.map (·.number)).foldl (fun s n => Station.all.foldl (fun s st => s.cancelStation gone lost testsDone n st) s) s

/-! ### Commands -/

/-- CAMERA_FIRE (R121, R123): the CAMERA entry of the station whose fire time is now fires. -/
def State.fireCamera (s : State) (st : Station) : State :=
  match s.dueEntry (.cam st) with
  | none => s
  | some e => s.fireCameraEntry st e

/-- FLASH_FIRE (R121, R124). -/
def State.fireFlash (s : State) (u : FlashId) : State :=
  match s.dueEntry (.fire u) with
  | none => s
  | some e => s.fireFlashEntry u e

/-- A deadline expires only at the moment TB equals it (R3). -/
def isDue (now : Time) (deadline : Option Time) : Bool := deadline == some now

/-- PULSE_END (R126): at its pulse end an output returns low. -/
def State.endPulse (s : State) (o : OutputLine) : State :=
  match o with
  | .cam st => if isDue s.now (s.outputs.cam.get st) then s.setOutputs { s.outputs with cam := s.outputs.cam.set st none } else s
  | .fire u => if isDue s.now (s.outputs.fire.get u) then s.setOutputs { s.outputs with fire := s.outputs.fire.set u none } else s

/-- The unit at its charge deadline: CHARGING becomes READY, and the deadline is discarded (R107). -/
def FlashUnit.charged (f : FlashUnit) : FlashUnit :=
  { f with state := if f.state = .charging then .ready else f.state, chargeAt := none }

/-- CHARGE_DEADLINE (R107, R108). -/
def State.chargeUnit (s : State) (u : FlashId) : State :=
  if isDue s.now (s.units.get u).chargeAt then s.setUnits (s.units.modify u FlashUnit.charged) else s

/-- AGE_OUT_DEADLINE (R110): the last fire it belongs to ceases to be recent. -/
def State.ageOutOf (s : State) (o : OutputLine) : State :=
  match o with
  | .cam st =>
    if isDue s.now (s.stations.get st).ageOutAt then
      s.setStations (s.stations.modify st fun x => { x with ageOutAt := none })
    else s
  | .fire u =>
    if isDue s.now (s.units.get u).ageOutAt then s.setUnits (s.units.modify u fun x => { x with ageOutAt := none }) else s

/-- The entries an assertion of FLINH removes: every FLASH entry, and every CAMERA entry of a REQUIRED station (R113). -/
def State.inhibits (s : State) (e : Entry) : Bool := !e.isCamera || (s.stationInForce e.station).policy == .required

/-- What an assertion of FLINH does (R113). -/
def State.assertInhibit (s : State) : State :=
  let s := s.setInhibit { pin := true, asserted := true, sampleTaken := true }
  let s := s.setUnits (.tabulate fun u => { s.units.get u with state := .inhibited })
  s.removeEntries s.inhibits none true

/-- What a release of FLINH does (R114). -/
def State.releaseInhibit (s : State) : State :=
  let s := s.setInhibit { pin := false, asserted := false, sampleTaken := true }
  s.setUnits (.tabulate fun u =>
    let f := s.units.get u
    if f.state = .inhibited then { f with state := if f.chargeAt.isSome then .charging else .ready } else f)

/-- FLINH_ASSERTED (R112, R113): taken at a sample that differs from the one before. Before TB starts counting the pin alone changes,
and the first sample takes it. -/
def State.flinhHigh (s : State) : State :=
  if s.clock.power = .running then
    if s.inhibit.asserted || s.inhibit.sampleTaken then s else s.assertInhibit
  else s.setInhibit { s.inhibit with pin := true }

/-- FLINH_RELEASED (R112, R114). -/
def State.flinhLow (s : State) : State :=
  if s.clock.power = .running then
    if !s.inhibit.asserted || s.inhibit.sampleTaken then s else s.releaseInhibit
  else s.setInhibit { s.inhibit with pin := false }

/-- CAMERA_FIRE (R123). -/
def execCameraFire (st : Station) (s : State) : Host.Outcome State Fault Refusal :=
  .next (s.whenRunning fun s => s.fireCamera st)

/-- FLASH_FIRE (R124). -/
def execFlashFire (u : FlashId) (s : State) : Host.Outcome State Fault Refusal :=
  .next (s.whenRunning fun s => s.fireFlash u)

/-- PULSE_END (R126). -/
def execPulseEnd (o : OutputLine) (s : State) : Host.Outcome State Fault Refusal :=
  .next (s.whenRunning fun s => s.endPulse o)

/-- CHARGE_DEADLINE (R107). -/
def execChargeDeadline (u : FlashId) (s : State) : Host.Outcome State Fault Refusal :=
  .next (s.whenRunning fun s => s.chargeUnit u)

/-- AGE_OUT_DEADLINE (R110). -/
def execAgeOutDeadline (o : OutputLine) (s : State) : Host.Outcome State Fault Refusal :=
  .next (s.whenRunning fun s => s.ageOutOf o)

/-- FLINH_ASSERTED (R113). -/
def execFlinhAsserted (s : State) : Host.Outcome State Fault Refusal := .next s.flinhHigh

/-- FLINH_RELEASED (R114). -/
def execFlinhReleased (s : State) : Host.Outcome State Fault Refusal := .next s.flinhLow

end Sys2Proof.Machine
end

