-- ==== Sys2Proof/Machine/Closing.lean ====
section
/-! DEFINITION. The close of a passage (R41, R42), the roles it takes back (R48), and the far confirmation of records (R63 to R67),
which can bring a close about. -/

namespace Sys2Proof.Machine

/-- A track's head detector unit. -/
def State.head (s : State) (t : Track) (b : Beam) : HeadUnit := (s.heads.get t).get b

/-- The state with a head detector unit replaced. -/
def State.setHead (s : State) (t : Track) (b : Beam) (h : HeadUnit) : State :=
  s.setHeads (s.heads.modify t fun hs => hs.set b h)

/-- The state with the open passage of a track changed by `f`. -/
def State.updatePassage (s : State) (t : Track) (f : Passage → Passage) : State :=
  s.setPassages (s.passages.modify t fun p => p.map f)

/-! ### Roles (R24, R48) -/

/-- A head detector unit is assigned a role: at once if CLEAR, else as its pending role (R48). -/
def HeadUnit.assign (h : HeadUnit) (r : Role) : HeadUnit :=
  match h.state with
  | .clear => { h with role := r, pendingRole := none }
  | _ => { h with pendingRole := some r }

/-- A head detector unit enters CLEAR: the head fields go, and a pending role takes effect (R48, R56, R59). -/
def HeadUnit.cleared (h : HeadUnit) : HeadUnit :=
  { state := .clear, role := h.pendingRole.getD h.role, pendingRole := none }

/-- Roles are assigned to both units of a track. -/
def State.assignRoles (s : State) (t : Track) (ha hb : Role) : State :=
  s.setHeads (s.heads.modify t fun hs => { ha := hs.ha.assign ha, hb := hs.hb.assign hb })

/-! ### Close (R41, R42) -/

/-- The passage's fields as the summary gives them: the entries still queued are removed and counted as rejected (R42, step 1). -/
def Passage.flushed (p : Passage) : Passage := { p with rejected := satAdd p.rejected p.queue.length, queue := [] }

/-- The passage closes (R42). -/
def State.closePassage (s : State) (t : Track) (p : Passage) : State :=
  let p := p.flushed
  let s := if p.leading = p.trailing then s
    else s.raise { kind := .axleMismatch, track := some t, item := .none, time := s.now }
  let s := s.offerByTrack .passage t (passageClosedNotice t p s.now)
  let s := s.assignRoles t .none .none
  let s := s.setPassages (s.passages.set t none)
  s.setTable { s.table with records := s.table.records.map fun r => if r.track = t then { r with ofOpenPassage := false } else r }

/-- A record of the passage open on a track waits for its confirmation (R41, condition 3). -/
def State.passageWaits (s : State) (t : Track) : Bool :=
  s.table.records.any fun r => r.track == t && r.ofOpenPassage && r.confirmation == .waiting

/-- The close condition of R41 for an open passage. -/
def State.mayClose (s : State) (t : Track) (p : Passage) : Bool :=
  p.quietElapsed && !(s.head t .ha).forming && !(s.head t .hb).forming && !s.passageWaits t

/-- The passage unit tests its close condition, and closes the passage if it holds (R41). -/
def State.testClose (s : State) (t : Track) : State :=
  match s.passages.get t with
  | none => s
  | some p => if s.mayClose t p then s.closePassage t p else s

/-- The quiet deadline is reached: quiet elapsed becomes yes, and the close condition is tested (R40). -/
def State.quietExpire (s : State) (t : Track) : State :=
  match s.passages.get t with
  | none => s
  | some p =>
    if isDue s.now p.quietAt then
      (s.setPassages (s.passages.set t (some { p with quietAt := none, quietElapsed := true }))).testClose t
    else s

/-! ### Confirmation (R63 to R67) -/

/-- The record as a match leaves it (R64): the residual saturates to −32 768 … 32 767. -/
def HeadRecord.matched (r : HeadRecord) (residual : Int) : HeadRecord :=
  { r with confirmation := .matched, residual := some (max (-32768) (min 32767 residual)), confirmAt := none, overdue := false }

/-- The record as MISSING leaves it (R66, R78). -/
def HeadRecord.missed (r : HeadRecord) : HeadRecord := { r with confirmation := .missing, confirmAt := none, overdue := false }

/-- A record leaves WAITING: it is tested for DONE, then the passage unit tests its close condition (R64, R66). -/
def State.leaveWaiting (s : State) (t : Track) (n : Nat) (f : HeadRecord → HeadRecord) : State :=
  ((s.updateRecord n f).testDone n).testClose t

/-- The residual of a record for a far centre, if it is a candidate of the open passage and within tolerance (R63). -/
def HeadRecord.candidate (r : HeadRecord) (t : Track) (passage : Nat) (tFar : Time) (cTol : Nat) : Option Int :=
  match r.confirmation, r.expectedFar with
  | .waiting, some x =>
    if r.track = t ∧ r.passage = passage ∧ (signedDiff tFar x).natAbs ≤ cTol then some (signedDiff tFar x) else none
  | _, _ => none

/-- The oldest candidate a far centre matches, with its residual (R63). -/
def findMatch (t : Track) (passage : Nat) (tFar : Time) (cTol : Nat) : List HeadRecord → Option (Nat × Int)
  | [] => none
  | r :: rest =>
    match r.candidate t passage tFar cTol with
    | some x => some (r.number, x)
    | none => findMatch t passage tFar cTol rest

/-- The number a reader sees for a track's passage: 0 while the unit is IDLE (R35). -/
def State.passageNumber (s : State) (t : Track) : Nat := ((s.passages.get t).map (·.number)).getD 0

/-- A far head's centre is offered for confirmation (R63 to R65). -/
def State.offerFar (s : State) (t : Track) (b : Beam) (tFar : Time) : State :=
  match findMatch t (s.passageNumber t) tFar (s.config t).cTol s.table.records with
  | some (n, r) => s.leaveWaiting t n fun x => x.matched r
  | none => s.raise { kind := .farUnmatched, track := some t, item := .input (.beam b), time := s.now }

/-- Every record of the track still overdue becomes MISSING, in order of creation (R67). -/
def State.settleOverdue (s : State) (t : Track) : State :=
  ((s.table.records.filter fun r => r.track == t && r.overdue).map (·.number)).foldl
    (fun s n => s.leaveWaiting t n HeadRecord.missed) s

/-- A far head is under way on the track: a unit with role FAR in effect is COVERED or GAP (R66). -/
def State.farUnderWay (s : State) (t : Track) : Bool :=
  Beam.all.any fun b => (s.head t b).role == .far && (s.head t b).forming

/-- A WAITING record's confirmation deadline expires (R66). -/
def State.confirmationExpire (s : State) (r : HeadRecord) : State :=
  if s.farUnderWay r.track then s.updateRecord r.number fun x => { x with confirmAt := none, overdue := true }
  else s.leaveWaiting r.track r.number HeadRecord.missed

/-- The confirmation deadline of the record of this number, if it is due and the record WAITING (R66). -/
def State.confirmationDue (s : State) (n : Nat) : State :=
  match s.record n with
  | none => s
  | some r => if isDue s.now r.confirmAt && r.confirmation == .waiting then s.confirmationExpire r else s

/-- QUIET_DEADLINE (R40). -/
def execQuietDeadline (t : Track) (s : State) : Host.Outcome State Fault Refusal :=
  .next (s.whenRunning fun s => s.quietExpire t)

/-- CONFIRMATION_DEADLINE (R66). -/
def execConfirmationDeadline (n : Nat) (s : State) : Host.Outcome State Fault Refusal :=
  .next (s.whenRunning fun s => s.confirmationDue n)

end Sys2Proof.Machine
end

