-- ==== Sys2Proof/Machine/Planner.lean ====
section
/-! DEFINITION. The exposure planner (chapter 5): the state of a closed head's record, the arithmetic of a head, and the planning of each
station. -/

namespace Sys2Proof.Machine

/-! ### Arithmetic of a head (R57, R93 to R95) -/

/-- The width w: t_trail − t_lead, taken as 1 when less than 1 (R57). -/
def headWidth (tLead tTrail : Time) : Nat := (max 1 (signedDiff tTrail tLead)).toNat

/-- The centre t_lead + floor(w / 2) (R57). -/
def headCentre (tLead tTrail : Time) : Time := plus tLead (headWidth tLead tTrail / 2)

/-- The length L = floor(w × v / 1 000 000), saturating at 65 535 (R93). -/
def headLength (w v : Nat) : Nat := min 65535 (w * v / 1000000)

/-- The time to go over `d` mm at `v` mm/s, to nearest with halves up (R94, R95). -/
def timeToGo (d v : Nat) : Nat := (d * 1000000 + v / 2) / v

/-- The distance to go from the NEAR beam to a camera plane (R94). -/
def distanceToGo (dir : Direction) (c : TrackConfig) (x : Nat) : Nat :=
  match dir with
  | .a => x - c.xHA
  | .b => c.xHB - x

/-- T_HORIZON (R90). -/
def horizon : Nat := 2000000

/-! ### Flash units (R105, R106) -/

/-- The most bookings a unit holds (R105). -/
def bookingLimit : Nat := 4

/-- A flash unit is free at `t` (R106). -/
def State.freeAt (s : State) (u : FlashId) (t : Time) : Bool :=
  let f := s.units.get u
  let r := (s.unitConfig u).recharge
  (s.unitConfig u).enabled && !s.inhibit.asserted
    && (match f.lastFire, f.ageOutAt with
        | some x, some _ => decide ((r : Int) ≤ signedDiff t x)
        | _, _ => true)
    && f.bookings.all (fun b => decide (r ≤ apart t b))
    && decide (f.bookings.length < bookingLimit)

/-! ### Planning a station (R96 to R102) -/

/-- What planning decides for one station: its outcome, flash result and, where step 8 is reached, its trigger and flash times. -/
structure StationPlan where
  camera : CameraOutcome
  flash : FlashResult
  trigger : Time
  flashTime : Time
  deriving DecidableEq, Repr

/-- The station is attended: bound to a port that is not LAPSED (R96, step 2). -/
def State.attended (s : State) (st : Station) : Bool :=
  match s.bindings.get st with
  | none => false
  | some p => (s.ports.get p).attendance == .attended

/-- The station is busy for a trigger at `trig` (R99). -/
def State.stationBusy (s : State) (st : Station) (spacing : Nat) (trig : Time) : Bool :=
  (match (s.stations.get st).lastFire, (s.stations.get st).ageOutAt with
    | some x, some _ => decide (apart trig x < spacing)
    | _, _ => false)
  || s.triggers.any fun e => e.output == .cam st && decide (apart trig e.fireAt < spacing)

/-- The flash result of step 6 for a station that is not refused there (R100). -/
def State.flashDecision (s : State) (t : Track) (c : StationConfig) (tc : Time) : FlashResult :=
  if c.policy = .none then .notUsed
  else if s.mode t = .test then .suppressed
  else if (unitsOf c.flashSet).all fun u => s.freeAt u tc then .booked
  else .unavailable

/-- How many trigger list entries a station needs with a flash result (R101). -/
def entriesNeeded (c : StationConfig) (f : FlashResult) : Nat :=
  1 + (if f = .booked then (unitsOf c.flashSet).length else 0)

/-- The steps of R96 to R102 for one station: the first that decides gives the outcome. -/
def State.decideStation (s : State) (t : Track) (snap : TrackSnapshot) (dir : Direction) (v : Nat) (tMid : Time) (st : Station)
    (c : StationConfig) : StationPlan :=
  let go := timeToGo (distanceToGo dir snap.config c.x) v
  let tc := plus tMid go
  let trig := minus tc c.delta
  let flash := s.flashDecision t c tc
  let plan (camera : CameraOutcome) (flash : FlashResult) : StationPlan :=
    { camera := camera, flash := flash, trigger := trig, flashTime := tc }
  if !c.enabled then plan .notServed .notUsed
  else if !s.attended st then plan .unattended .notUsed
  else if horizon < go then plan .missedHorizon .notUsed
  else if signedDiff trig s.now < (snap.tSetup : Int) then plan .missedLate .notUsed
  else if s.stationBusy st c.spacing trig then plan .missedBusy .notUsed
  else if flash = .unavailable ∧ c.policy = .required then plan .conflict .unavailable
  else if triggerLimit < s.triggers.length + entriesNeeded c flash then
    plan .missedListFull (if flash = .booked then .notUsed else flash)
  else plan .pending flash

/-- The reservations of step 8 in the trigger list and the booking lists (R102, steps 1 and 2). -/
def State.reserve (s : State) (n : Nat) (st : Station) (c : StationConfig) (p : StationPlan) : State :=
  let units := if p.flash = .booked then unitsOf c.flashSet else []
  let camera : Entry := { fireAt := p.trigger, output := .cam st, record := n, station := st }
  let s := s.setTriggers (units.foldl
    (fun l u => insertEntry s.now { fireAt := p.flashTime, output := .fire u, record := n, station := st } l)
    (insertEntry s.now camera s.triggers))
  s.setUnits (units.foldl
    (fun us u => us.modify u fun f => { f with bookings := insertTime s.now p.flashTime f.bookings }) s.units)

/-- A station entry as planning writes it (R73, R102). -/
def StationPlan.entry (p : StationPlan) (st : Station) : StationEntry :=
  { station := st, camera := p.camera, flash := p.flash, trigger := if p.camera = .pending then some p.trigger else none,
    fired := 0 }

/-- A decided station's effects: its reservations, its entry, and its HEAD_PLANNED notice or LIST_FULL fault (R101 to R103). -/
def State.applyPlan (s : State) (t : Track) (n : Nat) (st : Station) (c : StationConfig) (p : StationPlan) : State :=
  let s := if p.camera = .pending then s.reserve n st c p else s
  let s := s.updateRecord n fun r => { r with entries := r.entries ++ [p.entry st] }
  if p.camera = .pending then s.offerToHolder .plan (s.bindings.get st) (headPlannedNotice n st p.trigger p.flash)
  else if p.camera = .missedListFull then
    s.raise { kind := .listFull, track := some t, item := .record n, time := s.now }
  else s

/-- One station of the record's track is planned (R96); a station of no block naming the track has no entry (R73). -/
def State.planStation (t : Track) (snap : TrackSnapshot) (dir : Direction) (v : Nat) (tMid : Time) (n : Nat) (s : State)
    (st : Station) : State :=
  match snap.stations.get st with
  | none => s
  | some c => s.applyPlan t n st c (s.decideStation t snap dir v tMid st c)

/-! ### Deciding a closed head (R91, R92) -/

/-- The record state of R92 for the passage and estimate at the close, with the length and speed the plan update writes. -/
def decideRecord (p : Option Passage) (c : TrackConfig) (w : Nat) : RecordState × Nat × Nat :=
  match p with
  | none => (.untimed, 0, 0)
  | some p =>
    if p.reversed then (.abandoned, 0, 0)
    else match p.vEst with
      | none => (.untimed, 0, 0)
      | some v =>
        if headLength w v < c.lMin ∨ c.lMax < headLength w v then (.spurious, headLength w v, v)
        else (.planned, headLength w v, v)

/-- The plan update for a PLANNED record (R92, R95, R66). -/
def HeadRecord.plannedWith (r : HeadRecord) (w len v : Nat) (far confirmAt : Time) : HeadRecord :=
  { r with state := .planned, width := w, length := len, speed := v, confirmation := .waiting, expectedFar := some far,
           confirmAt := some confirmAt }

/-- The confirmation deadline set at planning expires at once if it was set to now, after the planner has finished with the head
(R66). -/
def State.afterPlanning (s : State) (n : Nat) : State := s.confirmationDue n

/-- A closed NEAR head whose record is FORMING is planned (R91). -/
def State.planHead (s : State) (t : Track) (n : Nat) (tLead tTrail : Time) : State :=
  let w := headWidth tLead tTrail
  let tMid := headCentre tLead tTrail
  let snap := s.planSnapshot t
  let d := decideRecord (s.passages.get t) snap.config w
  if d.1 = .planned then
    let v := d.2.2
    let far := plus tMid (timeToGo (snap.config.xHB - snap.config.xHA) v)
    let dir := ((s.passages.get t).map (·.direction)).getD .a
    let s := s.updateRecord n fun r => r.plannedWith w d.2.1 v far (notBefore (plus far (s.config t).cTol) s.now)
    (Station.all.foldl (State.planStation t snap dir v tMid n) s).afterPlanning n
  else
    (s.updateRecord n fun r => { r with width := w, length := d.2.1, speed := d.2.2 }).finishRecord n d.1

end Sys2Proof.Machine
end

