-- ==== Sys2Proof/Machine/Heads.lean ====
section
/-! DEFINITION. The head detector units (chapter 3): forming a head from edges, its close by role, and blocked beams. -/

namespace Sys2Proof.Machine

/-- The longest merge window, 50 000 µs (R54). -/
def windowLimit : Nat := 50000

/-- The merge window G for a published estimate and a merge distance (R54). -/
def mergeWindow (vEst : Option Nat) (m : Nat) : Nat :=
  if m = 0 then 0
  else match vEst with
    | none => windowLimit
    | some v => min windowLimit ((m * 1000000 + v - 1) / v)

/-- The estimate a track's passage unit publishes (R35). -/
def State.vEst (s : State) (t : Track) : Option Nat := (s.passages.get t).bind (·.vEst)

/-- The state with the state of a head detector unit replaced, its roles kept. -/
def State.setHeadState (s : State) (t : Track) (b : Beam) (x : HeadState) : State :=
  s.setHead t b { s.head t b with state := x }

/-! ### Blocked beams (R58, R59) -/

/-- A NEAR head's FORMING record becomes BLOCKED, and RECORD_FINAL is offered (R58). -/
def State.blockRecord (s : State) (n : Nat) : State := if s.recordIs n .forming then s.finishRecord n .blocked else s

/-- The unit enters BLOCKED from the head `h` (R58): the fault, the record's or the overdue records' change by role, the report. The
fault's time is now: the W_MAX expiry, or the reception of the active edge of R55, for which R169 does not say whether its stamp or its
reception is meant (notes/assumptions/23.md, the model's choice). -/
def State.enterBlocked (s : State) (t : Track) (b : Beam) (h : Head) : State :=
  let role := (s.head t b).role
  let s := s.setHeadState t b .blocked
  let s := s.raise { kind := .headBlocked, track := some t, item := .input (.beam b), time := s.now }
  let s := match role with
    | .near => (match h.record with
      | none => s
      | some n => s.blockRecord n)
    | .far => s.settleOverdue t
    | .none => s
  s.testClose t

/-- The W_MAX deadline expires (R58). -/
def State.wMaxExpire (s : State) (t : Track) (b : Beam) : State :=
  match (s.head t b).state with
  | .covered h => if isDue s.now h.wMaxAt then s.enterBlocked t b h else s
  | .gap h tTrail windowAt =>
    if isDue s.now h.wMaxAt then s.setHeadState t b (.gap { h with wMaxAt := none, limitPassed := true } tTrail windowAt) else s
  | _ => s

/-- An inactive edge in BLOCKED restores the beam (R59). -/
def State.restoreBeam (s : State) (t : Track) (b : Beam) : State := (s.setHead t b (s.head t b).cleared).testClose t

/-! ### Closing a head (R56, R60) -/

/-- A closed NEAR head is handed over, if its record is still FORMING (R60). -/
def State.handOver (s : State) (t : Track) (h : Head) (tTrail : Time) : State :=
  match h.record with
  | none => s
  | some n =>
    if s.recordIs n .forming then
      (s.updateRecord n fun r => { r with tTrail := some tTrail, strips := h.strips }).planHead t n h.tLead tTrail
    else s

/-- The head of a unit in GAP closes (R56). -/
def State.closeHead (s : State) (t : Track) (b : Beam) (h : Head) (tTrail : Time) : State :=
  let s := match (s.head t b).role with
    | .near => s.handOver t h tTrail
    | .far => (s.offerFar t b (headCentre h.tLead tTrail)).settleOverdue t
    | .none => s
  (s.setHead t b (s.head t b).cleared).testClose t

/-- The window deadline expires (R56). -/
def State.windowExpire (s : State) (t : Track) (b : Beam) : State :=
  match (s.head t b).state with
  | .gap h tTrail windowAt => if isDue s.now (some windowAt) then s.closeHead t b h tTrail else s
  | _ => s

/-! ### Forming a head (R51 to R55) -/

/-- A NEAR head is counted for the passage (R43) and has a record allocated, or is refused with TABLE_FULL (R52). -/
def State.recordHead (s : State) (t : Track) (b : Beam) (h : Head) : State :=
  match s.passages.get t with
  | none => s
  | some p =>
    let s := s.updatePassage t fun p => { p with heads := satSucc p.heads }
    match s.allocate t p h.tLead with
    | some (n, s) => s.setHeadState t b (.covered { h with record := some n })
    | none => s.raise { kind := .tableFull, track := some t, item := .input (.beam b), time := s.now }

/-- An active edge in CLEAR begins a head (R51). -/
def State.beginHead (s : State) (t : Track) (b : Beam) (stamp : Time) : State :=
  let wMaxAt := notBefore (plus stamp (s.config t).wMax) s.now
  let h : Head := { tLead := stamp, strips := 1, wMaxAt := some wMaxAt, limitPassed := false, record := none }
  let s := s.setHeadState t b (.covered h)
  let s := if (s.head t b).role = .near then s.recordHead t b h else s
  s.wMaxExpire t b

/-- An inactive edge in COVERED ends a strip (R53). -/
def State.endStrip (s : State) (t : Track) (b : Beam) (h : Head) (stamp : Time) : State :=
  let windowAt := notBefore (plus stamp (mergeWindow (s.vEst t) (s.config t).m)) s.now
  (s.setHeadState t b (.gap h stamp windowAt)).windowExpire t b

/-- An active edge in GAP merges a strip, or enters BLOCKED if the limit has passed (R55). -/
def State.mergeStrip (s : State) (t : Track) (b : Beam) (h : Head) : State :=
  if h.limitPassed then s.enterBlocked t b h
  else
    let h := { h with strips := min 15 (h.strips + 1) }
    let s := s.setHeadState t b (.covered h)
    match h.record with
    | none => s
    | some n => if s.recordIs n .forming then s.updateRecord n fun r => { r with strips := h.strips } else s

/-- A head detector unit takes an edge (R50). -/
def State.beamEdge (s : State) (t : Track) (b : Beam) (active : Bool) (stamp : Time) : State :=
  match (s.head t b).state, active with
  | .clear, true => s.beginHead t b stamp
  | .covered h, false => s.endStrip t b h stamp
  | .gap h _ _, true => s.mergeStrip t b h
  | .blocked, false => s.restoreBeam t b
  | _, _ => s

/-- WINDOW_DEADLINE (R56). -/
def execWindowDeadline (t : Track) (b : Beam) (s : State) : Host.Outcome State Fault Refusal :=
  .next (s.whenRunning fun s => s.windowExpire t b)

/-- W_MAX_DEADLINE (R58). -/
def execWMaxDeadline (t : Track) (b : Beam) (s : State) : Host.Outcome State Fault Refusal :=
  .next (s.whenRunning fun s => s.wMaxExpire t b)

end Sys2Proof.Machine
end

