-- ==== Sys2Proof/Machine/Passages.lean ====
section
/-! DEFINITION. The passage units (chapter 2): opening, leading and trailing edges, speed samples, reversal, and the quiet deadline's
movement. -/

namespace Sys2Proof.Machine

/-- V_MAX = 100 000 mm/s (R30). -/
def vMax : Nat := 100000

/-- The most entries an axle queue holds (R26). -/
def axleLimit : Nat := 8

/-- The sensor a train reaches first (R19). -/
def leadingWheel : Direction → Wheel
  | .a => .w1
  | .b => .w2

/-- The sensor a train reaches second (R19). -/
def trailingWheel : Direction → Wheel
  | .a => .w2
  | .b => .w1

/-! ### The passage's own fields -/

/-- The quiet deadline of a wheel edge (R40). -/
def quietDeadline (c : TrackConfig) (edge : Time) : Time := plus edge (c.tQuiet * 10000)

/-- An accepted wheel edge moves the last edge time and the quiet deadline, if it is stamped after the time held (R40). -/
def Passage.touch (p : Passage) (c : TrackConfig) (stamp : Time) : Passage :=
  if isAfter stamp p.lastEdge then { p with lastEdge := stamp, quietAt := some (quietDeadline c stamp), quietElapsed := false }
  else p

/-- A leading edge in RUNNING (R26): counted, and appended to the axle queue, which pushes out its oldest entry when full. -/
def Passage.leadingEdge (p : Passage) (stamp : Time) : Passage :=
  if axleLimit ≤ p.queue.length then
    { p with leading := satSucc p.leading, rejected := satSucc p.rejected, queue := p.queue.tail ++ [stamp] }
  else { p with leading := satSucc p.leading, queue := p.queue ++ [stamp] }

/-- The axle queue without its stale entries (R27): examined from the head, up to the first that is not stale. -/
def freshQueue (limit : Nat) (stamp : Time) (queue : List Time) : List Time :=
  queue.dropWhile fun e => decide ((limit : Int) < signedDiff stamp e)

/-- The passage with one more rejected sample. -/
def Passage.reject (p : Passage) : Passage := { p with rejected := satSucc p.rejected }

/-- The passage after a sample is accepted with estimate `v` (R31, R33, R34). -/
def Passage.accept (p : Passage) (v : Nat) : Passage :=
  { p with vEst := some v, accepted := satSucc p.accepted, discord := 0, orphan := 0 }

/-- A sample `v` is discordant with the estimate `est`: 4 × |v − est| > est (R32). -/
def discordant (v est : Nat) : Bool := est < 4 * ((v : Int) - est).natAbs

/-- A plausible sample is judged (R31 to R34). -/
def Passage.sample (p : Passage) (v : Nat) : Passage :=
  match p.vEst with
  | none => p.accept v
  | some est =>
    if discordant v est then
      if p.discord + 1 < 3 then { p.reject with discord := p.discord + 1 } else p.accept v
    else p.accept ((3 * est + v + 2) / 4)

/-- The pairing of a trailing edge with the entry `e` just removed (R29, R30). -/
def Passage.pair (p : Passage) (c : TrackConfig) (stamp e : Time) : Passage :=
  let d := signedDiff stamp e
  let v := sensorSpacing c * 1000000 / d.toNat
  if d < 1 ∨ vMax < v then p.reject else p.sample v

/-- A trailing edge in RUNNING, up to the reversal it may bring about (R27 to R34). -/
def Passage.trailingEdge (p : Passage) (c : TrackConfig) (stamp : Time) : Passage :=
  let fresh := freshQueue (pairingLimit c) stamp p.queue
  let p := { p with trailing := satSucc p.trailing, rejected := satAdd p.rejected (p.queue.length - fresh.length), queue := fresh }
  match fresh with
  | [] => { p with rejected := satSucc p.rejected, orphan := min 3 (p.orphan + 1) }
  | e :: rest => { p with queue := rest }.pair c stamp e

/-- A trailing edge completes the orphan run: it finds the axle queue empty of fresh entries, and the run now reads 3 (R28, R36). -/
def Passage.completesOrphanRun (p : Passage) (c : TrackConfig) (stamp : Time) : Bool :=
  (freshQueue (pairingLimit c) stamp p.queue).isEmpty && 3 ≤ p.orphan + 1

/-- A wheel edge counted in REVERSED (R38). -/
def Passage.countReversed (p : Passage) (leading : Bool) : Passage :=
  if leading then { p with leading := satSucc p.leading } else { p with trailing := satSucc p.trailing }

/-! ### Reversal (R36, R37) -/

/-- A record as abandonment leaves it (R37, R78). -/
def HeadRecord.abandoned (r : HeadRecord) : HeadRecord :=
  { r with confirmation := .none, expectedFar := none, residual := none, confirmAt := none, overdue := false }

/-- One record of a reversed passage is abandoned (R37). -/
def State.abandonRecord (s : State) (n : Nat) : State :=
  let s := s.removeEntries (fun e => e.record == n) none false
  (s.updateRecord n HeadRecord.abandoned).finishRecord n .abandoned

/-- The records a reversal abandons, in order of creation (R37). -/
def State.toAbandon (s : State) (t : Track) : List Nat :=
  (s.table.records.filter fun r => r.track == t && r.ofOpenPassage && !r.state.final).map (·.number)

/-- The passage becomes REVERSED (R36); the sensor is the one whose edge completed the orphan run. -/
def State.reverse (s : State) (t : Track) (w : Wheel) : State :=
  let s := s.updatePassage t fun p => { p.flushed with reversed := true }
  let s := (s.toAbandon t).foldl State.abandonRecord s
  (s.raise { kind := .reversal, track := some t, item := .input (.wheel w), time := s.now }).testClose t

/-! ### Edges -/

/-- The direction an opening edge fixes (R23). -/
def openingDirection : Wheel → Direction
  | .w1 => .a
  | .w2 => .b

/-- A passage as it opens, before the opening edge is counted (R21, R23). -/
def openingPassage (n : Nat) (w : Wheel) (stamp : Time) : Passage :=
  { number := n, direction := openingDirection w, reversed := false, openTime := stamp, leading := 0, trailing := 0,
    accepted := 0, rejected := 0, vEst := none, discord := 0, orphan := 0, heads := 0, lastEdge := stamp, quietAt := none,
    quietElapsed := false, tag := none, queue := [] }

/-- The roles of HA and HB for a direction (R24). -/
def rolesFor : Direction → Role × Role
  | .a => (.near, .far)
  | .b => (.far, .near)

/-- An active wheel edge opens a passage (R23). -/
def State.openPassage (s : State) (t : Track) (w : Wheel) (stamp : Time) : State :=
  let p := openingPassage s.nextPassage w stamp
  let s := (s.setPassages (s.passages.set t (some p))).setNextPassage (nextNumber s.nextPassage)
  let s := s.assignRoles t (rolesFor p.direction).1 (rolesFor p.direction).2
  let s := s.offerByTrack .passage t (passageOpenedNotice t p)
  s.updatePassage t fun p => { p.leadingEdge stamp with quietAt := some (quietDeadline (s.config t) stamp) }

/-- A wheel edge taken by an open passage (R26, R27, R38, R40). -/
def State.takeWheelEdge (s : State) (t : Track) (w : Wheel) (active : Bool) (stamp : Time) (p : Passage) : State :=
  let c := s.config t
  let p := p.touch c stamp
  let put (p : Passage) : State := s.setPassages (s.passages.set t (some p))
  if !active then put p
  else if p.reversed then put (p.countReversed (w == leadingWheel p.direction))
  else if w = leadingWheel p.direction then put (p.leadingEdge stamp)
  else if p.completesOrphanRun c stamp then (put (p.trailingEdge c stamp)).reverse t w
  else put (p.trailingEdge c stamp)

/-- A passage unit receives a wheel edge (R20, R23, R25). -/
def State.wheelEdge (s : State) (t : Track) (w : Wheel) (active : Bool) (stamp : Time) : State :=
  if s.mode t = .out then s
  else match s.passages.get t with
    | none => if active then s.openPassage t w stamp else s
    | some p => s.takeWheelEdge t w active stamp p

end Sys2Proof.Machine
end

