-- ==== Sys2Proof/Machine/Conditioners.lean ====
section
/-! DEFINITION. The input conditioners (chapter 1): sampling, filtering, stuck monitors, changes of the active level, injected edges and
the change of stream on entering and leaving TEST. -/

namespace Sys2Proof.Machine

/-- A track's input conditioner. -/
def State.conditioner (s : State) (t : Track) (i : Input) : Conditioner := (s.inputs.get t).get i

/-- The state with a conditioner replaced. -/
def State.setConditioner (s : State) (t : Track) (i : Input) (c : Conditioner) : State :=
  s.setInputs (s.inputs.modify t fun cs => cs.set i c)

/-- The conditioned level, as active or inactive (R7). -/
def Conditioner.conditionedActive (c : Conditioner) : Bool := c.pin != .inactive

/-- The last sample shows the active level in use (R5). -/
def State.showsActive (s : State) (t : Track) (i : Input) : Bool :=
  (s.conditioner t i).raw == (s.config t).activeHigh.get i

/-! ### Edges (R10, R12) -/

/-- An edge is handed to the conditioner's consumer (R4). -/
def State.handEdge (s : State) (t : Track) (i : Input) (active : Bool) (stamp : Time) : State :=
  match i with
  | .wheel w => s.wheelEdge t w active stamp
  | .beam b => s.beamEdge t b active stamp

/-- An edge emitted from the pin state: handed on in OUT and LIVE, discarded in TEST (R10). -/
def State.emitPinEdge (s : State) (t : Track) (i : Input) (active : Bool) (stamp : Time) : State :=
  if s.mode t = .test then s else s.handEdge t i active stamp

/-- WHEEL_STUCK is raised for a wheel input (R12, R16). -/
def State.raiseStuck (s : State) (t : Track) (w : Wheel) : State :=
  s.raise { kind := .wheelStuck, track := some t, item := .input (.wheel w), time := s.now }

/-- The stuck deadline of a state that enters ACTIVE at `stamp`, which only a wheel conditioner has (R11, R16). -/
def stuckDeadlineFor (c : TrackConfig) (i : Input) (stamp : Time) : Option Time :=
  match i with
  | .wheel _ => some (plus stamp (c.tStuck * 1000))
  | .beam _ => none

/-! ### Filtering (R7 to R9) -/

/-- The conditioner after its filter, stamped `t0`, is accepted; and the edge it emits, if any (R9, R11, R13). -/
def Conditioner.accept (c : Conditioner) (cfg : TrackConfig) (i : Input) (toActive : Bool) (t0 : Time) : Conditioner × Option Bool :=
  match toActive, c.pin with
  | true, .inactive => ({ c with filter := none, pin := .active, stuckAt := stuckDeadlineFor cfg i t0 }, some true)
  | false, .active => ({ c with filter := none, pin := .inactive, stuckAt := none }, some false)
  | false, .stuck => ({ c with filter := none, pin := .inactive, stuckAt := none }, none)
  | _, _ => ({ c with filter := none }, none)

/-- A filter is accepted (R9): the pin state changes and the edge, stamped t0, is emitted. -/
def State.acceptFilter (s : State) (t : Track) (i : Input) (toActive : Bool) (t0 : Time) : State :=
  let r := (s.conditioner t i).accept (s.config t) i toActive t0
  let s := s.setConditioner t i r.1
  match r.2 with
  | none => s
  | some active => s.emitPinEdge t i active t0

/-- A raw change at the current TB starts a filter toward a level (R7); with N_FILT = 0 it is accepted at once. -/
def State.startFilter (s : State) (t : Track) (i : Input) (toActive : Bool) : State :=
  let n := (s.config t).nFilt.get i
  if n = 0 then s.acceptFilter t i toActive s.now
  else s.setConditioner t i
    { s.conditioner t i with filter := some { toActive := toActive, t0 := s.now, deadline := plus s.now n } }

/-- The sample of the present TB value shows the pin at `high` (R5, R7, R8). -/
def State.takeSample (s : State) (t : Track) (i : Input) (high : Bool) : State :=
  let c := s.conditioner t i
  if c.sampleTaken || c.raw == high then s
  else
    let s := s.setConditioner t i { c with raw := high, sampleTaken := true }
    match c.filter with
    | some _ =>
      if s.showsActive t i = c.conditionedActive then
        s.setConditioner t i { s.conditioner t i with filter := none }
      else s
    | none => if s.showsActive t i = c.conditionedActive then s else s.startFilter t i (s.showsActive t i)

/-- RAW_CHANGE: before TB starts counting no sample is taken, and the pin's level alone changes (R2, R5). -/
def State.rawChange (s : State) (t : Track) (i : Input) (high : Bool) : State :=
  if s.clock.power = .running then s.takeSample t i high
  else s.setConditioner t i { s.conditioner t i with raw := high }

/-- The first sample after TB starts counting is compared with the conditioned level (R5). -/
def State.firstSample (s : State) (t : Track) (i : Input) : State :=
  if s.showsActive t i && !(s.conditioner t i).conditionedActive then s.startFilter t i true else s

/-- TB reaches a pending filter's deadline: the sample taken there decides it (R8, R9). -/
def State.filterExpire (s : State) (t : Track) (i : Input) : State :=
  let c := s.conditioner t i
  match c.filter with
  | none => s
  | some f =>
    if isDue s.now (some f.deadline) then
      let s := s.setConditioner t i { c with sampleTaken := true }
      if s.showsActive t i = f.toActive then s.acceptFilter t i f.toActive f.t0
      else s.setConditioner t i { c with sampleTaken := true, filter := none }
    else s

/-! ### Stuck monitors (R12, R16) -/

/-- A wheel conditioner's stuck deadline expires (R12). -/
def State.stuckExpire (s : State) (t : Track) (w : Wheel) : State :=
  let c := s.conditioner t (.wheel w)
  if isDue s.now c.stuckAt then
    if c.pin = .active then (s.setConditioner t (.wheel w) { c with pin := .stuck, stuckAt := none }).raiseStuck t w
    else s.setConditioner t (.wheel w) { c with stuckAt := none }
  else s

/-- The stuck deadline of a wheel conditioner's injection state expires (R16). -/
def State.injectionStuckExpire (s : State) (t : Track) (w : Wheel) : State :=
  let c := s.conditioner t (.wheel w)
  if isDue s.now c.injectionStuckAt then
    if c.injection = .active then
      (s.setConditioner t (.wheel w) { c with injection := .stuck, injectionStuckAt := none }).raiseStuck t w
    else s.setConditioner t (.wheel w) { c with injectionStuckAt := none }
  else s

/-! ### Injected edges (R15, R147) -/

/-- An injected edge is applied to the injection state, without a filter, and what the table of R15 names is handed on. -/
def State.applyInjected (s : State) (t : Track) (i : Input) (active : Bool) : State :=
  let c := s.conditioner t i
  match active, c.injection with
  | true, .inactive =>
    (s.setConditioner t i { c with injection := .active, injectionStuckAt := stuckDeadlineFor (s.config t) i s.now }).handEdge
      t i true s.now
  | false, .active =>
    (s.setConditioner t i { c with injection := .inactive, injectionStuckAt := none }).handEdge t i false s.now
  | false, .stuck => s.setConditioner t i { c with injection := .inactive, injectionStuckAt := none }
  | _, _ => s

/-- The state with a track's injection queue replaced. -/
def State.setInjections (s : State) (t : Track) (q : List InjectedEdge) : State :=
  s.setTracks (s.tracks.modify t fun x => { x with injections := q })

/-- The first queued edge of an input whose time is now leaves the queue and is applied (R147). -/
def State.deliverInjected (s : State) (t : Track) (i : Input) : State :=
  let q := (s.tracks.get t).injections
  match q.find? fun e => e.input == i && e.time == s.now with
  | none => s
  | some e => (s.setInjections t (q.erase e)).applyInjected t i e.active

/-! ### Changes of settings and of stream (R14, R17) -/

/-- The active level in use changes: the old view of the pin ends and a new one is taken (R14). -/
def State.changeActiveLevel (s : State) (t : Track) (i : Input) : State :=
  let c := s.conditioner t i
  let s := s.setConditioner t i { c with filter := none, stuckAt := none, pin := .inactive, sampleTaken := true }
  let s := if c.pin = .active then s.emitPinEdge t i false s.now else s
  if s.showsActive t i then s.startFilter t i true else s

/-- The active level in use is compared with the one a conditioner used before (R6, R14). -/
def State.settleActiveLevel (s : State) (old : PerInput Bool) (t : Track) (i : Input) : State :=
  if (s.config t).activeHigh.get i = old.get i then s else s.changeActiveLevel t i

/-- Entering TEST: a pin stream in ACTIVE ends with an inactive edge (R17). -/
def State.endPinStream (s : State) (t : Track) (i : Input) : State :=
  if (s.conditioner t i).pin = .active then s.handEdge t i false s.now else s

/-- Leaving TEST, steps 1 and 2 of R17: an injected stream in ACTIVE ends with an inactive edge, and the injection state is cleared. -/
def State.endInjectedStream (s : State) (t : Track) (i : Input) : State :=
  let c := s.conditioner t i
  let s := if c.injection = .active then s.handEdge t i false s.now else s
  s.setConditioner t i { s.conditioner t i with injection := .inactive, injectionStuckAt := none }

/-- Leaving TEST, step 3 of R17: a pin stream in ACTIVE starts with an active edge. -/
def State.startPinStream (s : State) (t : Track) (i : Input) : State :=
  if (s.conditioner t i).pin = .active then s.handEdge t i true s.now else s

/-- RAW_CHANGE (R7). -/
def execRawChange (t : Track) (i : Input) (high : Bool) (s : State) : Host.Outcome State Fault Refusal :=
  .next (s.rawChange t i high)

/-- FILTER_ACCEPT (R9). -/
def execFilterAccept (t : Track) (i : Input) (s : State) : Host.Outcome State Fault Refusal :=
  .next (s.whenRunning fun s => s.filterExpire t i)

/-- STUCK_DEADLINE (R12). -/
def execStuckDeadline (t : Track) (w : Wheel) (s : State) : Host.Outcome State Fault Refusal :=
  .next (s.whenRunning fun s => s.stuckExpire t w)

/-- INJECTED_EDGE_DELIVERY (R147). -/
def execInjectedEdgeDelivery (t : Track) (i : Input) (s : State) : Host.Outcome State Fault Refusal :=
  .next (s.whenRunning fun s => s.deliverInjected t i)

/-- INJECTION_STUCK_DEADLINE (R16). -/
def execInjectionStuckDeadline (t : Track) (w : Wheel) (s : State) : Host.Outcome State Fault Refusal :=
  .next (s.whenRunning fun s => s.injectionStuckExpire t w)

end Sys2Proof.Machine
end

