-- ==== Sys2Proof/Machine/Tracks.lean ====
section
/-! DEFINITION. Track control (chapter 7): validation of a snapshot, changes of mode, start-live. -/

namespace Sys2Proof.Machine

/-! ### Validation (R141) -/

/-- One check of R141 about one item: the check's code (R178), the item's byte (0xFF for none), and whether it holds. -/
structure Check where
  code : Nat
  item : Byte
  holds : Bool
  deriving DecidableEq, Repr

/-- A value lies in a range. -/
def within (lo hi n : Nat) : Bool := decide (lo ≤ n) && decide (n ≤ hi)

/-- Check 2, TRACK_RANGE. -/
def trackInRange (snap : TrackSnapshot) : Bool :=
  let c := snap.config
  Input.all.all (fun i => within 0 1023 (c.nFilt.get i)) && within 50 5000 c.tStuck && within 0 1000 c.m
    && within 50 3000 c.lMin && within 50 3000 c.lMax && decide (c.lMin ≤ c.lMax) && within 1000 2000000 c.wMax
    && within 50 6000 c.tQuiet && within 100 100000 c.cTol && within 50 5000 snap.tSetup

/-- Check 3, WHEEL_SPACING: the difference is taken as a signed integer. -/
def wheelSpacingHolds (c : TrackConfig) : Bool :=
  decide ((200 : Int) ≤ (c.xW2 : Int) - c.xW1) && decide ((c.xW2 : Int) - c.xW1 ≤ 4000)

/-- Check 9, FLASH_SET, for one station. -/
def flashSetHolds (units : PerUnit UnitConfig) (c : StationConfig) : Bool :=
  (c.policy != .required && c.policy != .preferred)
    || (!(unitsOf c.flashSet).isEmpty && (unitsOf c.flashSet).all fun u => (units.get u).enabled)

/-- The station is enabled in a snapshot. -/
def TrackSnapshot.enables (snap : TrackSnapshot) (st : Station) : Bool :=
  match snap.stations.get st with
  | none => false
  | some c => c.enabled

/-- One check made for each enabled station of a snapshot, in ascending number. -/
def stationChecks (snap : TrackSnapshot) (code : Nat) (holds : Station → StationConfig → Bool) : List Check :=
  Station.all.filterMap fun st =>
    match snap.stations.get st with
    | none => none
    | some c => if c.enabled then some { code := code, item := .ofNat 8 (stationCode st), holds := holds st c } else none

/-- The checks of R141 in order, for a snapshot judged against flash unit settings, which were taken with it or not (R140), and
against the other track's snapshot in force. -/
def checks (format : Byte) (snap : TrackSnapshot) (units : PerUnit UnitConfig) (unitsTaken : Bool)
    (other : Option TrackSnapshot) : List Check :=
  [{ code := 1, item := 0xFF, holds := format == 0x01 },
   { code := 2, item := 0xFF, holds := trackInRange snap },
   { code := 3, item := 0xFF, holds := wheelSpacingHolds snap.config },
   { code := 4, item := 0xFF, holds := decide (snap.config.xHA < snap.config.xHB) }]
  ++ stationChecks snap 5 (fun _ c => decide (snap.config.xHA < c.x) && decide (c.x < snap.config.xHB))
  ++ stationChecks snap 6 (fun _ c => within 0 20000 c.delta && within 10 5000 c.pulse && within 1000 1000000 c.spacing)
  ++ stationChecks snap 7 (fun _ c => decide (c.pulse ≤ c.spacing))
  ++ stationChecks snap 8 (fun _ c => c.policy != .other)
  ++ stationChecks snap 9 (fun _ c => flashSetHolds units c)
  ++ stationChecks snap 10 (fun st _ => !((other.map fun o => o.enables st).getD false))
  ++ (if unitsTaken then
        (FlashId.all.filter fun u => (units.get u).enabled).map fun u =>
          { code := 11, item := .ofNat 8 (unitCode u), holds := within 5000 2000000 (units.get u).recharge }
      else [])

/-- The first failed check (R141). -/
def firstFailure (cs : List Check) : Option Check := cs.find? fun c => !c.holds

/-! ### Taking and adopting snapshots (R139, R140) -/

/-- The flash unit settings a track leaving OUT is judged against: those in force while the other track is LIVE or TEST, else those
taken from the image with its snapshot (R140). -/
def State.unitsFor (s : State) (t : Track) : PerUnit UnitConfig :=
  if s.mode t.other = .out then takeUnits s.image else s.unitSnapshot.getD (takeUnits s.image)

/-- The outcome of validation for a track leaving OUT: the first failed check, if any (R141). -/
def State.validate (s : State) (t : Track) : Option Check :=
  firstFailure (checks (Memory.read s.image 0x000) (takeSnapshot s.image t) (s.unitsFor t) (s.mode t.other == .out)
    (if s.mode t.other = .out then none else (s.tracks.get t.other).snapshot))

/-- The state with a track's mode changed. -/
def State.setMode (s : State) (t : Track) (m : Mode) : State := s.setTracks (s.tracks.modify t fun x => { x with mode := m })

/-- The snapshot, and where R140 calls for it the flash unit snapshot, are adopted. -/
def State.adopt (s : State) (t : Track) : State :=
  (s.setTracks (s.tracks.modify t fun x => { x with snapshot := some (takeSnapshot s.image t) })).setUnitSnapshot
    (some (s.unitsFor t))

/-- A track's snapshot is discarded. -/
def State.dropSnapshot (s : State) (t : Track) : State :=
  s.setTracks (s.tracks.modify t fun x => { x with snapshot := none })

/-- The flash unit snapshot is discarded if the other track is OUT (R138, R140). -/
def State.dropUnits (s : State) (t : Track) : State := if s.mode t.other = .out then s.setUnitSnapshot none else s

/-! ### Changes of mode (R138) -/

/-- The entries of a track's records (R131). -/
def State.entryOfTrack (s : State) (t : Track) (e : Entry) : Bool :=
  match s.record e.record with
  | none => false
  | some r => r.track == t

/-- R131: every entry of the track's records is removed. -/
def State.removeTrackEntries (s : State) (t : Track) : State := s.removeEntries (s.entryOfTrack t) none true

/-- An accepted change from OUT (R138). -/
def State.leaveOut (s : State) (t : Track) (m : Mode) : State :=
  let s := (s.adopt t).setMode t m
  if m = .test then s.takeAll (Input.all.map fun i s => s.endPinStream t i) else s

/-- LIVE → TEST (R138). -/
def State.liveToTest (s : State) (t : Track) : State :=
  (s.setMode t .test).takeAll (Input.all.map fun i s => s.endPinStream t i)

/-- TEST → LIVE (R138, R17). Every injected stream ends before a pin stream starts, so that an inactive wheel edge reaches an IDLE unit,
and the beams' pin streams start before the wheels', so that a head edge is taken in role NONE: the active edge of a wheel, which opens a
passage, comes after them (R138). Within each group the order is open (notes/assumptions/13.md). -/
def State.testToLive (s : State) (t : Track) : State :=
  let s := ((s.setInjections t []).setMode t .live).takeAll (Input.all.map fun i s => s.endInjectedStream t i)
  let s := s.takeAll (Beam.all.map fun b s => s.startPinStream t (.beam b))
  s.takeAll (Wheel.all.map fun w s => s.startPinStream t (.wheel w))

/-- LIVE → OUT (R138, R14). -/
def State.liveToOut (s : State) (t : Track) : State :=
  let old := (s.config t).activeHigh
  let s := ((s.removeTrackEntries t).dropSnapshot t).setMode t .out
  (s.takeAll (Input.all.map fun i s => s.settleActiveLevel old t i)).dropUnits t

/-- TEST → OUT (R138, R14, R17). -/
def State.testToOut (s : State) (t : Track) : State :=
  let old := (s.config t).activeHigh
  let s := (s.setInjections t []).takeAll (Input.all.map fun i s => s.endInjectedStream t i)
  let s := ((s.removeTrackEntries t).dropSnapshot t).setMode t .out
  (s.takeAll (Input.all.flatMap fun i => [fun s => s.startPinStream t i, fun s => s.settleActiveLevel old t i])).dropUnits t

/-- An accepted change of mode (R138). -/
def State.changeMode (s : State) (t : Track) (m : Mode) : State :=
  match s.mode t, m with
  | .out, .live => s.leaveOut t .live
  | .out, .test => s.leaveOut t .test
  | .live, .test => s.liveToTest t
  | .test, .live => s.testToLive t
  | .live, .out => s.liveToOut t
  | .test, .out => s.testToOut t
  | _, _ => s

/-- Start-live (R143): a track that is OUT attempts the change to LIVE, without reply, notice or fault. -/
def State.startLive (s : State) (t : Track) : State :=
  if s.mode t = .out ∧ (s.validate t).isNone then s.leaveOut t .live else s

end Sys2Proof.Machine
end

