-- ==== Sys2Proof/Machine/Requests.lean ====
section
/-! DEFINITION. The fifteen requests (chapter 9): how each is judged and performed. Each answers its result code, its reply body and the
state after it; the port's own bookkeeping is R155's (Sys2Proof/Machine/Ports.lean). -/

namespace Sys2Proof.Machine

/-- What performing a request answers (R155, steps 1 and 2). -/
structure Answer where
  result : Result
  body : List Byte
  state : State

/-- The fifteen request kinds (R162). -/
inductive RequestKind
  | nop | subscribe | bind | unbind | setTrackMode | readTrack | readRecord | latestRecords | readOutputs | tagPassage | relay
  | inject | readFaults | releaseFault | readTime
  deriving DecidableEq, Repr

/-- The request kinds in the order of their kind bytes, from 0x01 (R178). -/
def requestKinds : List RequestKind :=
  [.nop, .subscribe, .bind, .unbind, .setTrackMode, .readTrack, .readRecord, .latestRecords, .readOutputs, .tagPassage, .relay,
   .inject, .readFaults, .releaseFault, .readTime]

/-- The kind byte of a request kind (R178). -/
def kindByte : RequestKind → Byte
  | .nop => 0x01 | .subscribe => 0x02 | .bind => 0x03 | .unbind => 0x04 | .setTrackMode => 0x05 | .readTrack => 0x06
  | .readRecord => 0x07 | .latestRecords => 0x08 | .readOutputs => 0x09 | .tagPassage => 0x0A | .relay => 0x0B | .inject => 0x0C
  | .readFaults => 0x0D | .releaseFault => 0x0E | .readTime => 0x0F

/-- The request kind a byte names, if any (R161, test 2). -/
def requestKindOf (b : Byte) : Option RequestKind := requestKinds.find? fun k => kindByte k == b

/-- The body lengths a kind allows (R162). -/
def allowsLength (k : RequestKind) (n : Nat) : Bool :=
  match k with
  | .nop => n == 0
  | .subscribe => n == 2
  | .bind => n == 1
  | .unbind => n == 1
  | .setTrackMode => n == 2
  | .readTrack => n == 1
  | .readRecord => n == 2
  | .latestRecords => n == 1
  | .readOutputs => n == 0
  | .tagPassage => n == 5
  | .relay => 2 ≤ n && n ≤ 13
  | .inject => n == 5 || n == 9 || n == 13
  | .readFaults => n == 0
  | .releaseFault => n == 2
  | .readTime => n == 0

/-- A request refused with an empty body, and no change (R161). -/
def State.refuse (s : State) (r : Result) : Answer := { result := r, body := [], state := s }

/-- A request accepted. -/
def State.grant (s : State) (body : List Byte) : Answer := { result := .accepted, body := body, state := s }

/-- The state with a port changed by `f`. -/
def State.updatePort (s : State) (p : PortId) (f : Port → Port) : State := s.setPorts (s.ports.modify p f)

/-! ### Subscriptions and bindings -/

/-- SUBSCRIBE (R163). -/
def State.subscribe (s : State) (p : PortId) (tracks classes : Byte) : Answer :=
  if tracks.toNat < 4 ∧ classes.toNat < 32 then
    (s.updatePort p fun x => { x with trackMask := tracks.setWidth 2, classMask := classes.setWidth 5 }).grant [tracks, classes]
  else s.refuse .badArg

/-- The body of a BIND reply: the station and the port that holds it (R165). -/
def bindBody (station : Byte) (holder : PortId) : List Byte := [station, .ofNat 8 (portCode holder)]

/-- BIND (R165). -/
def State.bindStation (s : State) (p : PortId) (station : Byte) : Answer :=
  match stationOf station with
  | none => s.refuse .badArg
  | some st =>
    match s.bindings.get st with
    | none => (s.setBindings (s.bindings.set st (some p))).grant (bindBody station p)
    | some q => if q = p then s.grant (bindBody station p) else { result := .held, body := bindBody station q, state := s }

/-- The binding of a station is lost by a port, and the station's entries are removed (R130, R166). -/
def State.loseBinding (s : State) (p : PortId) (st : Station) : State :=
  (s.setBindings (s.bindings.set st none)).removeEntries (fun e => e.station == st) (some p) true

/-- UNBIND (R166). -/
def State.unbindStation (s : State) (p : PortId) (station : Byte) : Answer :=
  match stationOf station with
  | none => s.refuse .badArg
  | some st =>
    if s.bindings.get st = some p then
      (s.loseBinding p st).grant [station, .ofNat 8 (s.triggers.countP fun e => e.station == st)]
    else s.refuse .notBound

/-! ### Track requests -/

/-- The mode byte of a SET_TRACK_MODE reply: the mode held, or 0xFF when the track named is not 0 or 1 (R137, R178). -/
def State.modeByte (s : State) (track : Option Track) : Byte :=
  match track with
  | none => 0xFF
  | some t => .ofNat 8 (modeCode (s.mode t))

/-- A refused SET_TRACK_MODE, whose reply carries the mode held (R137, R161). -/
def State.refuseMode (s : State) (track : Option Track) (r : Result) : Answer :=
  { result := r, body := [s.modeByte track], state := s }

/-- SET_TRACK_MODE of a track to a mode (R137). -/
def State.setTrackMode (s : State) (t : Track) (m : Mode) : Answer :=
  if m = s.mode t then s.grant [s.modeByte (some t)]
  else if s.mode t ≠ .out ∧ (s.passages.get t).isSome then s.refuseMode (some t) .busy
  else if s.mode t = .out then
    match s.validate t with
    | some c => { result := .configInvalid, body := [s.modeByte (some t), .ofNat 8 c.code, c.item], state := s }
    | none => (s.changeMode t m).grant [.ofNat 8 (modeCode m)]
  else (s.changeMode t m).grant [.ofNat 8 (modeCode m)]

/-- SET_TRACK_MODE with its track and mode bytes (R137). -/
def State.setTrackModeBytes (s : State) (track mode : Byte) : Answer :=
  match trackOf track, modeOf mode with
  | some t, some m => s.setTrackMode t m
  | t, _ => s.refuseMode t .badArg

/-- READ_TRACK (R167). -/
def State.readTrack (s : State) (track : Byte) : Answer :=
  match trackOf track with
  | none => s.refuse .badArg
  | some t => s.grant (trackBody s t)

/-- TAG_PASSAGE (R39, R85). -/
def State.tagPassage (s : State) (track : Byte) (tag : BitVec 32) : Answer :=
  match trackOf track with
  | none => s.refuse .badArg
  | some t =>
    match s.passages.get t with
    | none => s.refuse .noPassage
    | some p =>
      if p.tag.isSome then s.refuse .tagged
      else
        let s := s.setPassages (s.passages.set t (some { p with tag := some tag }))
        (s.setTable { s.table with records := s.table.records.map fun r =>
          if r.track = t ∧ r.ofOpenPassage then { r with tag := some tag } else r }).grant []

/-! ### Injection (R145, R146) -/

/-- The edges an INJECT body carries after its track byte: an edge byte and a 24-bit offset each. -/
def injectArgs : List Byte → List EdgeArg
  | e :: a :: b :: c :: rest => { edge := e, offset := a ++ b ++ c } :: injectArgs rest
  | _ => []

/-- An edge byte names an input and a level: bits 2–6 are clear (R178). -/
def edgeNamed (e : EdgeArg) : Bool := e.edge &&& 0x7C == 0

/-- The edges' offsets are not decreasing in the order given (R146). -/
def offsetsRise : List EdgeArg → Bool
  | a :: b :: rest => decide (a.offset.toNat ≤ b.offset.toNat) && offsetsRise (b :: rest)
  | _ => true

/-- The injected edge of an argument at an execution (R145). -/
def injectedEdge (now : Time) (e : EdgeArg) : InjectedEdge :=
  { input := inputOf (e.edge.setWidth 2), active := e.edge.getLsbD 7, time := plus now e.offset.toNat }

/-- An injected edge placed by its time relative to now, after edges of an equal time (R145). -/
def insertInjected (now : Time) (e : InjectedEdge) : List InjectedEdge → List InjectedEdge
  | [] => [e]
  | x :: rest => if ahead e.time now < ahead x.time now then e :: x :: rest else x :: insertInjected now e rest

/-- The most edges an injection queue holds (R145). -/
def injectionLimit : Nat := 16

/-- INJECT (R146). -/
def State.inject (s : State) (track : Byte) (edges : List EdgeArg) : Answer :=
  match trackOf track with
  | none => s.refuse .badArg
  | some t =>
    if !(edges.all fun e => edgeNamed e && e.offset != 0) || !offsetsRise edges then s.refuse .badArg
    else if s.mode t ≠ .test then s.refuse .notInTest
    else
      let q := (s.tracks.get t).injections
      if injectionLimit < q.length + edges.length then s.refuse .full
      else
        (s.setInjections t (edges.foldl (fun q e => insertInjected s.now (injectedEdge s.now e) q) q)).grant
          (timeBytes s.now ++ [.ofNat 8 (q.length + edges.length)])

/-! ### Reading (R86, R87, R167) -/

/-- READ_RECORD (R86). -/
def State.readRecord (s : State) (n : Nat) : Answer :=
  match s.record n with
  | none => s.refuse .notFound
  | some r => s.grant (recordBody r)

/-- LATEST_RECORDS (R87). -/
def State.latestRecords (s : State) (track : Byte) : Answer :=
  match trackOf track with
  | none => s.refuse .badArg
  | some t => s.grant (latestBody s t)

/-! ### Relay and faults -/

/-- RELAY (R168). -/
def State.relay (s : State) (p : PortId) (target : Byte) (bytes : List Byte) : Answer :=
  match portOf target with
  | none => s.refuse .badArg
  | some q =>
    let x := s.ports.get q
    if x.inReset || x.attendance == .lapsed then s.refuse .unreachable
    else if queueLimit ≤ x.queue.length then s.refuse .full
    else (s.offer (fun i _ => i == q) (relayNotice p bytes)).grant []

/-- RELEASE_FAULT (R170). -/
def State.releaseFault (s : State) (mask : BitVec 16) : Answer :=
  if mask.toNat < 512 then
    let f : FaultCapture := { flags := s.faults.flags &&& ~~~(mask.setWidth 9), held := none }
    (s.setFaults f).grant (flagsBytes f)
  else s.refuse .badArg

/-! ### Judging a frame (R161) -/

/-- A request of an allowed length is performed by its own rule. -/
def State.perform (s : State) (p : PortId) (k : RequestKind) (body : List Byte) : Answer :=
  match k, body with
  | .nop, _ => s.grant []
  | .subscribe, [tracks, classes] => s.subscribe p tracks classes
  | .bind, [station] => s.bindStation p station
  | .unbind, [station] => s.unbindStation p station
  | .setTrackMode, [track, mode] => s.setTrackModeBytes track mode
  | .readTrack, [track] => s.readTrack track
  | .readRecord, [hi, lo] => s.readRecord (valueOf [hi, lo])
  | .latestRecords, [track] => s.latestRecords track
  | .readOutputs, _ => s.grant (outputsBody s)
  | .tagPassage, [track, a, b, c, d] => s.tagPassage track (a ++ b ++ c ++ d)
  | .relay, target :: bytes => s.relay p target bytes
  | .inject, track :: edges => s.inject track (injectArgs edges)
  | .readFaults, _ => s.grant (faultsBody s.faults)
  | .releaseFault, [hi, lo] => s.releaseFault (hi ++ lo)
  | .readTime, _ => s.grant (timeBytes s.now)
  | _, _ => s.refuse .malformed

/-- A frame of the wrong length is MALFORMED; the reply to SET_TRACK_MODE carries the mode held on every result (R161, R178). -/
def State.malformed (s : State) (k : RequestKind) (body : List Byte) : Answer :=
  if k = .setTrackMode then s.refuseMode (body.head?.bind trackOf) .malformed else s.refuse .malformed

/-- The tests of R161, in order, on a complete frame. -/
def State.judge (s : State) (p : PortId) (kind length : Byte) (body : List Byte) : Answer :=
  match requestKindOf kind with
  | none => s.refuse (if 15 ≤ length.toNat then .malformed else .unknown)
  | some k =>
    if allowsLength k length.toNat then s.perform p k body else s.malformed k body

end Sys2Proof.Machine
end

