-- ==== Sys2Proof/Machine/Ports.lean ====
section
/-! DEFINITION. The client ports (chapter 8): accesses, framing, execution, output, attendance and port reset; and the fifteen requests as
commands, each the writing of its frame. -/

namespace Sys2Proof.Machine

/-! ### Frames (R152, R155) -/

/-- The assembler's bytes are a complete frame: the length byte is 0, or 15 or more, or its body is whole (R152). -/
def frameComplete : List Byte → Bool
  | _ :: n :: body => n = 0 || 15 ≤ n.toNat || n.toNat ≤ body.length
  | _ => false

/-- The attendance deadline as a restart sets it (R159). -/
def attendanceDeadline (m : Memory) (p : PortId) (now : Time) : Option Time :=
  if imageAttend m p = 0 then none else some (plus now (imageAttend m p * 100000))

/-- A reply's bytes: the kind as received, the result code, the length, the body (R178). -/
def replyBytes (kind : Byte) (r : Result) (body : List Byte) : List Byte :=
  kind :: resultCode r :: .ofNat 8 body.length :: body

/-- The port after an execution (R155, steps 2 to 4), with the arbiter's loading of the reply at a message boundary (R156). -/
def Port.finishExecution (x : Port) (reply : List Byte) (deadline : Option Time) : Port :=
  Port.arbitrate
    { x with reply := some { bytes := reply, inOutput := false }, assembler := x.holder.toList, holder := none, holding := false,
             attendance := .attended, attendAt := deadline, executing := false }

/-- The complete frame in a port's assembler is executed (R155). -/
def State.executeFrame (s : State) (p : PortId) : State :=
  match (s.ports.get p).assembler with
  | kind :: length :: body =>
    let a := (s.updatePort p fun x => { x with executing := true }).judge p kind length body
    a.state.updatePort p fun x =>
      x.finishExecution (replyBytes kind a.result a.body) (attendanceDeadline a.state.image p a.state.now)
  | _ => s

/-- The assembler takes a byte; a frame it completes is executed at once if the reply slot is empty, and else held (R152). -/
def State.assemble (s : State) (p : PortId) (b : Byte) : State :=
  let s := s.updatePort p fun x => { x with assembler := x.assembler ++ [b] }
  let x := s.ports.get p
  if frameComplete x.assembler then
    if x.reply.isNone then s.executeFrame p else s.updatePort p fun x => { x with holding := true }
  else s

/-- A data write (R151 to R153): ignored while IN_RESET, an overrun while PIF is asserted, stopped at the holder while holding, and
else taken by the assembler. -/
def State.writeByte (s : State) (p : PortId) (b : Byte) : State :=
  let x := s.ports.get p
  if x.inReset then s
  else if x.holder.isSome then s.updatePort p fun x => { x with overrun := true }
  else if x.holding then s.updatePort p fun x => { x with holder := some b }
  else s.assemble p b

/-- A processor writes bytes to its port, one data write each. -/
def State.writeBytes (s : State) (p : PortId) (bytes : List Byte) : State := bytes.foldl (fun s b => s.writeByte p b) s

/-- A request's frame: its kind byte, its length byte, its body (R178). -/
def requestFrame (k : RequestKind) (body : List Byte) : List Byte := kindByte k :: .ofNat 8 body.length :: body

/-- A processor writes a request's frame to its port. -/
def State.request (s : State) (p : PortId) (k : RequestKind) (body : List Byte) : State :=
  s.whenRunning fun s => s.writeBytes p (requestFrame k body)

/-- A status write (R154). -/
def State.writeStatus (s : State) (p : PortId) : State :=
  if (s.ports.get p).inReset then s
  else s.updatePort p fun x => { x with assembler := [], holder := none, holding := false, overrun := false }

/-! ### Output (R156) -/

/-- The port after a data read has taken the byte `b` of the message in progress: the next byte is loaded, or the message ends, which
empties the reply slot if it was a reply. -/
def Port.advance (x : Port) (b : Byte) : Port :=
  let x := { x with lastRead := b }
  match x.inProgress with
  | none => { x with outReg := none }
  | some m =>
    if m.position + 1 < m.bytes.length then
      { x with inProgress := some { m with position := m.position + 1 }, outReg := m.bytes[m.position + 1]? }
    else { x with inProgress := none, outReg := none, reply := if m.isReply then none else x.reply }

/-- A data read (R151, R156). -/
def State.readByte (s : State) (p : PortId) : State :=
  let x := s.ports.get p
  if x.inReset then s
  else
    match x.outReg with
    | none => s.updatePort p fun x => { x with lastRead := 0 }
    | some b =>
      let s := s.updatePort p fun x => x.advance b
      let x := s.ports.get p
      if x.inProgress.isSome then s
      else if x.holding && x.reply.isNone then s.executeFrame p
      else s.updatePort p Port.arbitrate

/-! ### Attendance (R159) -/

/-- The attendance deadline is reached: the port becomes LAPSED. -/
def State.attendanceExpire (s : State) (p : PortId) : State :=
  if isDue s.now (s.ports.get p).attendAt then
    s.updatePort p fun x => { x with attendance := .lapsed, attendAt := none }
  else s

/-- The attendance deadline is restarted. -/
def State.restartAttendance (s : State) (p : PortId) : State :=
  s.updatePort p fun x => { x with attendAt := attendanceDeadline s.image p s.now }

/-! ### Port reset (R160) -/

/-- PRST_N is asserted (R160): bindings with their entries' removal, then the port's own state. The steps are taken in the order of R160, so
step 3 clears the drops of step 1's own offers, and nothing is routed to the port afterwards: the dropped count is 0 at the release, where
the worked case of chapter 8 has 1 for a STATION_RESULT offered during the reset (notes/assumptions/24.md, the model's choice). -/
def State.resetPort (s : State) (p : PortId) : State :=
  let s := s.updatePort p fun x => { x with inReset := true }
  let mine := Station.all.filter fun st => s.bindings.get st == some p
  let s := s.setBindings (.tabulate fun st => if s.bindings.get st = some p then none else s.bindings.get st)
  let s := s.removeEntries (fun e => mine.contains e.station) (some p) true
  s.updatePort p fun x => { Port.fresh true with lastRead := x.lastRead }

/-- PORT_RESET: a port already IN_RESET stays so, its PRST_N being asserted already. -/
def State.assertPortReset (s : State) (p : PortId) : State :=
  if s.clock.power = .running then if (s.ports.get p).inReset then s else s.resetPort p
  else s.updatePort p fun x => { x with inReset := true }

/-- PORT_RESET_RELEASE (R160): RUNNING and ATTENDED, with the deadline restarted; before TB starts counting the restart is left to
TB's start (R159). -/
def State.releasePortReset (s : State) (p : PortId) : State :=
  if (s.ports.get p).inReset then
    let s := s.updatePort p fun x => { x with inReset := false, attendance := .attended }
    if s.clock.power = .running then s.restartAttendance p else s
  else s

/-! ### Commands -/

/-- DATA_WRITE (R152). -/
def execDataWrite (p : PortId) (b : Byte) (s : State) : Host.Outcome State Fault Refusal :=
  .next (s.whenRunning fun s => s.writeByte p b)

/-- STATUS_WRITE (R154). -/
def execStatusWrite (p : PortId) (s : State) : Host.Outcome State Fault Refusal :=
  .next (s.whenRunning fun s => s.writeStatus p)

/-- DATA_READ (R156). -/
def execDataRead (p : PortId) (s : State) : Host.Outcome State Fault Refusal :=
  .next (s.whenRunning fun s => s.readByte p)

/-- ATTENDANCE_DEADLINE (R159). -/
def execAttendanceDeadline (p : PortId) (s : State) : Host.Outcome State Fault Refusal :=
  .next (s.whenRunning fun s => s.attendanceExpire p)

/-- PORT_RESET (R160). -/
def execPortReset (p : PortId) (s : State) : Host.Outcome State Fault Refusal := .next (s.assertPortReset p)

/-- PORT_RESET_RELEASE (R160). -/
def execPortResetRelease (p : PortId) (s : State) : Host.Outcome State Fault Refusal := .next (s.releasePortReset p)

/-- NOP (R162). -/
def execNop (p : PortId) (s : State) : Host.Outcome State Fault Refusal := .next (s.request p .nop [])

/-- SUBSCRIBE (R163). -/
def execSubscribe (p : PortId) (tracks classes : Byte) (s : State) : Host.Outcome State Fault Refusal :=
  .next (s.request p .subscribe [tracks, classes])

/-- BIND (R165). -/
def execBind (p : PortId) (station : Byte) (s : State) : Host.Outcome State Fault Refusal := .next (s.request p .bind [station])

/-- UNBIND (R166). -/
def execUnbind (p : PortId) (station : Byte) (s : State) : Host.Outcome State Fault Refusal :=
  .next (s.request p .unbind [station])

/-- SET_TRACK_MODE (R137). -/
def execSetTrackMode (p : PortId) (track mode : Byte) (s : State) : Host.Outcome State Fault Refusal :=
  .next (s.request p .setTrackMode [track, mode])

/-- READ_TRACK (R167). -/
def execReadTrack (p : PortId) (track : Byte) (s : State) : Host.Outcome State Fault Refusal :=
  .next (s.request p .readTrack [track])

/-- READ_RECORD (R86). -/
def execReadRecord (p : PortId) (number : BitVec 16) (s : State) : Host.Outcome State Fault Refusal :=
  .next (s.request p .readRecord (bytes2 number.toNat))

/-- LATEST_RECORDS (R87). -/
def execLatestRecords (p : PortId) (track : Byte) (s : State) : Host.Outcome State Fault Refusal :=
  .next (s.request p .latestRecords [track])

/-- READ_OUTPUTS (R115). -/
def execReadOutputs (p : PortId) (s : State) : Host.Outcome State Fault Refusal := .next (s.request p .readOutputs [])

/-- TAG_PASSAGE (R39). -/
def execTagPassage (p : PortId) (track : Byte) (tag : BitVec 32) (s : State) : Host.Outcome State Fault Refusal :=
  .next (s.request p .tagPassage (track :: bytes4 tag.toNat))

/-- RELAY (R168). -/
def execRelay (p : PortId) (target : Byte) (bytes : List Byte) (s : State) : Host.Outcome State Fault Refusal :=
  .next (s.request p .relay (target :: bytes))

/-- The four bytes of an edge in an INJECT body (R178). -/
def edgeBytes (e : EdgeArg) : List Byte := e.edge :: bytes3 e.offset.toNat

/-- INJECT (R146). -/
def execInject (p : PortId) (track : Byte) (edges : List EdgeArg) (s : State) : Host.Outcome State Fault Refusal :=
  .next (s.request p .inject (track :: edges.flatMap edgeBytes))

/-- READ_FAULTS (R170). -/
def execReadFaults (p : PortId) (s : State) : Host.Outcome State Fault Refusal := .next (s.request p .readFaults [])

/-- RELEASE_FAULT (R170). -/
def execReleaseFault (p : PortId) (mask : BitVec 16) (s : State) : Host.Outcome State Fault Refusal :=
  .next (s.request p .releaseFault (bytes2 mask.toNat))

/-- READ_TIME (R162). -/
def execReadTime (p : PortId) (s : State) : Host.Outcome State Fault Refusal := .next (s.request p .readTime [])

end Sys2Proof.Machine
end

