-- ==== Sys2Proof/Machine/MaintenanceLine.lean ====
section
/-! DEFINITION. The maintenance line and the commit (chapter 10): bytes received, the parser, the access check, reads and writes of the
image and of the status window, breaks, and the writing of the store page by page. -/

namespace Sys2Proof.Machine

/-- The state with the maintenance line changed by `f`. -/
def State.updateMaint (s : State) (f : Maintenance → Maintenance) : State := s.setMaint (f s.maint)

/-- The part drives items on MLINE (R173). -/
def State.send (s : State) (items : List LineItem) : State := s.updateMaint fun m => { m with sent := m.sent ++ items }

/-- The part drives bytes on MLINE. -/
def State.sendBytes (s : State) (bytes : List Byte) : State := s.send (bytes.map .byte)

/-! ### Addresses (R174) -/

/-- The address (addr_hi × 256 + addr_lo) modulo 1 024. -/
def lineAddress (hi lo : Byte) : BitVec 10 := (hi ++ lo).setWidth 10

/-- Byte `k` of a TB value, the most significant first. -/
def timeByte (t : Time) (k : Nat) : Byte := (timeBytes t).getD k 0

/-- The byte a read of the status window returns, from 0x200 on (R174, R179). -/
def State.windowByte (s : State) (offset : Nat) : Byte :=
  match offset with
  | 0 => timeByte s.maint.latch 0
  | 1 => timeByte s.maint.latch 1
  | 2 => timeByte s.maint.latch 2
  | 3 => timeByte s.maint.latch 3
  | 4 => .ofNat 8 (modeCode (s.mode .t0))
  | 5 => .ofNat 8 (modeCode (s.mode .t1))
  | 6 => .ofNat 8 (passageStateCode (s.passages.get .t0))
  | 7 => .ofNat 8 (passageStateCode (s.passages.get .t1))
  | 8 => (flagsBytes s.faults).getD 0 0
  | 9 => (flagsBytes s.faults).getD 1 0
  | _ => 0

/-- The first address of the access code (R174). -/
def codeBase : Nat := 0x1F0

/-- The byte a read of an address returns (R174): the image's byte but for the access code, then the status window, and 0x00 beyond it.
That R174 holds of every byte of the image, whether or not it holds a field, is log entry 25 (notes/assumptions/25.md). -/
def State.lineByte (s : State) (addr : Nat) : Byte :=
  if addr < imageSize then
    if codeBase ≤ addr ∧ addr < codeBase + 6 then 0 else Memory.read s.image addr
  else s.windowByte (addr - imageSize)

/-- A read of 0x200 first latches TB (R174). -/
def State.latchFor (s : State) (addr : Nat) : State :=
  if addr = imageSize then s.updateMaint fun m => { m with latch := s.now } else s

/-- A byte of the working image is written, whether or not it holds a field (R174, notes/assumptions/25.md): the conditioners of a track
that is OUT see a change of their active level at once (R14, R172). -/
def State.writeImage (s : State) (addr : Nat) (b : Byte) : State :=
  let old := s.image
  let s := s.setImage (Memory.write s.image addr b)
  Track.all.foldl (fun s t =>
    if s.mode t = .out then
      Input.all.foldl (fun s i => s.settleActiveLevel (imageTrack old t).activeHigh t i) s
    else s) s

/-! ### Commands (R174, R175) -/

/-- A completed command's address becomes the last address, and the parser waits for a command. -/
def State.completeAt (s : State) (addr : BitVec 10) : State := s.updateMaint fun m => { m with parser := .idle, lastAddress := addr }

/-- A completed 'L' or 'l' (R174); in SHUT it returns 0x00 (R175). -/
def State.lineRead (s : State) (addr : BitVec 10) : State :=
  let s := s.completeAt addr
  if s.maint.access = .open then
    let s := s.latchFor addr.toNat
    s.sendBytes [s.lineByte addr.toNat]
  else s.sendBytes [0]

/-- A completed 'S' or 's' (R174): a write beyond the image is ignored, and so is one in SHUT (R175). -/
def State.lineWrite (s : State) (addr : BitVec 10) (b : Byte) : State :=
  let s := s.completeAt addr
  if s.maint.access = .open ∧ addr.toNat < imageSize then s.writeImage addr.toNat b else s

/-- 'K' (R174); in SHUT it returns three zeros (R175). -/
def State.lineChecksum (s : State) : State :=
  if s.maint.access = .open then
    s.sendBytes (bytes2 (checksumOf s.image) ++ [if checksumMatches s.image then 0x01 else 0x00])
  else s.sendBytes [0, 0, 0]

/-! ### Commit (R176) -/

/-- The bytes of a page of the store. -/
def pageSize : Nat := 16

/-- The last page of the store. -/
def lastPage : Nat := 31

/-- The time one page write takes (R176). -/
def pageTime : Nat := 5000

/-- A page write begins: the image is read for the page at the page's start (R176). -/
def State.beginPage (s : State) (page : Nat) : State :=
  s.updateMaint fun m =>
    { m with commit := some { page := page, pageEndAt := plus s.now pageTime,
                              bytes := Memory.readRange s.image (pageSize * page) pageSize } }

/-- A 'C' taken in OPEN: the checksum is written into the image and the first page write begins (R176); in SHUT it sends 0x01. -/
def State.startCommit (s : State) : State :=
  if s.maint.access = .open then
    let c := checksumOf s.image
    (s.setImage (Memory.write (Memory.write s.image 0x1FE (.ofNat 8 (c / 256))) 0x1FF (.ofNat 8 c))).beginPage 0
  else s.sendBytes [0x01]

/-- Consecutive bytes written to the store; a cell that fails to take its byte holds what the manual leaves open (R176). -/
def writeCells (choice : Nat) (addr : Nat) (bytes : List Byte) (m : Memory) : Memory :=
  match bytes with
  | [] => m
  | b :: rest =>
    writeCells choice (addr + 1) rest
      (Memory.write m addr (if Config.cellFails choice addr then Config.cellValue choice addr else b))

/-- The page write under way ends: the store holds the page (R176). -/
def State.endPage (s : State) (c : CommitWrite) : State :=
  (s.setStore (writeCells s.choices (pageSize * c.page) c.bytes s.store)).setChoices (s.choices + 1)

/-- COMMIT_PAGE: a page write that is not the last ends and the next begins (R176). -/
def State.commitPage (s : State) : State :=
  match s.maint.commit with
  | none => s
  | some c => if isDue s.now (some c.pageEndAt) ∧ c.page < lastPage then (s.endPage c).beginPage (c.page + 1) else s

/-- All 512 bytes of the store equal the image (R176). -/
def State.storeVerifies (s : State) : Bool :=
  (List.range imageSize).all fun a => Memory.read s.store a == Memory.read s.image a

/-- COMMIT_END: the last page write ends, and the store is verified against the image (R176). -/
def State.commitEnd (s : State) : State :=
  match s.maint.commit with
  | none => s
  | some c =>
    if isDue s.now (some c.pageEndAt) ∧ lastPage ≤ c.page then
      let s := (s.endPage c).updateMaint fun m => { m with commit := none, parser := .idle }
      if s.storeVerifies then s.sendBytes [0x00]
      else (s.raise { kind := .storeWrite, track := none, item := .none, time := s.now }).sendBytes [0x02]
    else s

/-- Bytes of the page in progress as a stopped commit leaves them: each its old or its new value (R177). -/
def mixCells (choice : Nat) (addr : Nat) (bytes : List Byte) (m : Memory) : Memory :=
  match bytes with
  | [] => m
  | b :: rest =>
    mixCells choice (addr + 1) rest (if Config.mixedByteIsNew choice addr then Memory.write m addr b else m)

/-- A commit in flight is stopped by a device reset or a loss of power (R177). -/
def State.stopCommit (s : State) : State :=
  match s.maint.commit with
  | none => s
  | some c =>
    ((s.setStore (mixCells s.choices (pageSize * c.page) c.bytes s.store)).setChoices (s.choices + 1)).updateMaint
      fun m => { m with commit := none }

/-! ### Bytes received (R173 to R176) -/

/-- The command bytes (R179). -/
inductive LineCommand | read | write | readNext | writeNext | commit | checksum
  deriving DecidableEq, Repr

/-- The byte of a command. -/
def commandByte : LineCommand → Byte
  | .read => 0x4C | .write => 0x53 | .readNext => 0x6C | .writeNext => 0x73 | .commit => 0x43 | .checksum => 0x4B

/-- The command a byte begins, if any. -/
def commandOf (b : Byte) : Option LineCommand :=
  [LineCommand.read, .write, .readNext, .writeNext, .commit, .checksum].find? fun c => commandByte c == b

/-- The state with the parser at a point. -/
def State.setParser (s : State) (p : Parser) : State := s.updateMaint fun m => { m with parser := p }

/-- A byte that begins a command (R174); any other is echoed and ignored. -/
def State.beginCommand (s : State) (b : Byte) : State :=
  match commandOf b with
  | none => s
  | some .read => s.setParser (.addrHi false)
  | some .write => s.setParser (.addrHi true)
  | some .readNext => s.lineRead (s.maint.lastAddress + 1)
  | some .writeNext => s.setParser (.data (s.maint.lastAddress + 1))
  | some .commit => s.startCommit
  | some .checksum => s.lineChecksum

/-- The parser takes a byte (R174). -/
def State.parse (s : State) (b : Byte) : State :=
  match s.maint.parser with
  | .idle => s.beginCommand b
  | .addrHi write => s.setParser (.addrLo write b)
  | .addrLo false hi => s.lineRead (lineAddress hi b)
  | .addrLo true hi => s.setParser (.data (lineAddress hi b))
  | .data addr => s.lineWrite addr b

/-- A code byte is collected, and the sixth decides OPEN or SHUT and is followed by a break (R175). -/
def State.collectCode (s : State) (b : Byte) : State :=
  let code := s.maint.code ++ [b]
  if code.length < 6 then s.updateMaint fun m => { m with code := code }
  else
    let access : Access := if code = Memory.readRange s.image codeBase 6 then .open else .shut
    (s.updateMaint fun m => { m with code := [], access := access }).send [.lineBreak]

/-- A byte received on MLINE: it is echoed, and then collected, parsed or, while a commit is in flight, discarded (R173 to R176). -/
def State.receive (s : State) (b : Byte) : State :=
  let s := s.sendBytes [b]
  if s.maint.commit.isSome then s
  else if s.maint.access = .waitingCode then s.collectCode b
  else s.parse b

/-- Bytes received on MLINE one after another. -/
def State.receiveAll (s : State) (bytes : List Byte) : State := s.whenRunning fun s => bytes.foldl State.receive s

/-- A partial command and a partial access code are discarded (R173, R175). -/
def State.resetLine (s : State) : State := s.updateMaint fun m => { m with parser := .idle, code := [] }

/-! ### Commands of the table -/

/-- MAINT_READ (R174): 'L', addr_hi, addr_lo. -/
def execMaintRead (hi lo : Byte) (s : State) : Host.Outcome State Fault Refusal :=
  .next (s.receiveAll [commandByte .read, hi, lo])

/-- MAINT_WRITE (R174): 'S', addr_hi, addr_lo, data. -/
def execMaintWrite (hi lo data : Byte) (s : State) : Host.Outcome State Fault Refusal :=
  .next (s.receiveAll [commandByte .write, hi, lo, data])

/-- MAINT_READ_NEXT (R174): 'l'. -/
def execMaintReadNext (s : State) : Host.Outcome State Fault Refusal := .next (s.receiveAll [commandByte .readNext])

/-- MAINT_WRITE_NEXT (R174): 's', data. -/
def execMaintWriteNext (data : Byte) (s : State) : Host.Outcome State Fault Refusal :=
  .next (s.receiveAll [commandByte .writeNext, data])

/-- COMMIT (R176): 'C'. -/
def execCommit (s : State) : Host.Outcome State Fault Refusal := .next (s.receiveAll [commandByte .commit])

/-- COMMIT_PAGE (R176). -/
def execCommitPage (s : State) : Host.Outcome State Fault Refusal := .next (s.whenRunning State.commitPage)

/-- COMMIT_END (R176). -/
def execCommitEnd (s : State) : Host.Outcome State Fault Refusal := .next (s.whenRunning State.commitEnd)

/-- CHECKSUM (R174): 'K'. -/
def execChecksum (s : State) : Host.Outcome State Fault Refusal := .next (s.receiveAll [commandByte .checksum])

/-- UNKNOWN_COMMAND_BYTE (R174): the byte is received as the line's state has it. -/
def execUnknownCommandByte (b : Byte) (s : State) : Host.Outcome State Fault Refusal := .next (s.receiveAll [b])

/-- CODE_BYTE (R175): the byte is received as the line's state has it. -/
def execCodeByte (b : Byte) (s : State) : Host.Outcome State Fault Refusal := .next (s.receiveAll [b])

/-- BYTE_RECEIVED_IN_FLIGHT (R176): the byte is received as the line's state has it. -/
def execByteReceivedInFlight (b : Byte) (s : State) : Host.Outcome State Fault Refusal := .next (s.receiveAll [b])

/-- BREAK (R173): the line's parsing and collection are reset, and the part answers with a break. -/
def execLineBreak (s : State) : Host.Outcome State Fault Refusal :=
  .next (s.whenRunning fun s => s.resetLine.send [.lineBreak])

/-- FRAMING_ERROR (R173): the byte is discarded without an echo, and the line's parsing and collection are reset. -/
def execFramingError (s : State) : Host.Outcome State Fault Refusal := .next (s.whenRunning State.resetLine)

end Sys2Proof.Machine
end

