-- ==== Sys2Proof/Machine/Resets.lean ====
section
/-! DEFINITION. Power, device reset, the store load, and the start of TB (R1, R2, R134, R143, R171, R172, R177). -/

namespace Sys2Proof.Machine

/-- Every block in its reset state (the reset rule of each chapter), with what lies outside the part (pin levels), what survives (the
store) and what a release of RST_N decides (the strap setting, the access state) kept; the model's choice counter and the queue stay. -/
def State.freshBlocks (s : State) (power : Power) (access : Access) : State :=
  { State.reset with
    clock := { State.reset.clock with power := power, clksel := s.clock.clksel }
    inputs := .tabulate fun t => .tabulate fun i => .fresh (s.conditioner t i).raw
    inhibit := { State.reset.inhibit with pin := s.inhibit.pin }
    ports := .tabulate fun p => .fresh (s.ports.get p).inReset
    store := s.store
    image := s.image
    maint := .fresh access
    choices := s.choices
    pending := s.pending }

/-- POWER_ON (R134, R175): power is applied with RST_N asserted; the line will ask for its code if the load succeeds. The working image
is volatile and holds nothing before the load (notes/assumptions/3.md). -/
def State.powerOn (s : State) : State := (s.stopCommit.freshBlocks .inReset .waitingCode).setImage []

/-- DEVICE_RESET (R134, R177): RST_N is asserted. A part without power has no reset to take. -/
def State.deviceReset (s : State) : State :=
  if s.clock.power = .unpowered then s else s.stopCommit.freshBlocks .inReset s.maint.access

/-- POWER_LOSS (R177): a commit in flight stops; the store keeps its contents, and all else is lost. -/
def State.powerLoss (s : State) : State := (s.stopCommit.freshBlocks .unpowered .waitingCode).setImage []

/-- The access state after a load (R175). -/
def accessAfterLoad (succeeds : Bool) (before : Access) : Access :=
  if !succeeds then .open else if before = .open then .open else .waitingCode

/-- The store is copied into the working image and its checksum compared; on a mismatch the image is cleared (R172). -/
def State.loadStore (s : State) : State :=
  let ok := checksumMatches s.store
  let s := s.setImage (if ok then s.store else [])
  let s := s.setClock { s.clock with loadFailed := !ok }
  s.updateMaint fun m => { m with access := accessAfterLoad ok m.access }

/-- DEVICE_RESET_RELEASE (R1, R2): the strap is sampled and the store is loaded, TB staying at 0. -/
def State.releaseReset (s : State) (clksel : BitVec 2) : State :=
  if s.clock.power = .inReset then (s.setClock { s.clock with power := .loading, clksel := clksel }).loadStore else s

/-- A failed load raises STORE_INVALID with time 0 when TB starts counting (R171). -/
def State.raiseStoreInvalid (s : State) : State :=
  if s.clock.loadFailed then
    (s.setClock { s.clock with loadFailed := false }).raise { kind := .storeInvalid, track := none, item := .none, time := 0 }
  else s

/-- The attendance deadline of every RUNNING port is restarted (R159); a port IN_RESET starts at its release (R160). -/
def State.startAttendance (s : State) : State :=
  s.setPorts (.tabulate fun p =>
    let x := s.ports.get p
    if x.inReset then x else { x with attendAt := attendanceDeadline s.image p s.now })

/-- Every pin's sample of the present TB value has been taken, or is still to be taken. -/
def State.markSamples (s : State) (taken : Bool) : State :=
  (s.setInputs (.tabulate fun t => .tabulate fun i => { s.conditioner t i with sampleTaken := taken })).setInhibit
    { s.inhibit with sampleTaken := taken }

/-- The events of the moment TB starts that have anything to do: start-live of a track whose flag is set (R143), the first sample of an
input that shows its active level (R5), and FLINH found high (R112). Their order is free (notes/assumptions/13.md). Where start-live and a covered wheel come before a covered beam, the
beam's head begins in the role the passage has assigned (R48, R51), not in the NONE of R70: the model's choice (notes/assumptions/26.md). -/
def State.startEvents (s : State) : List (State → State) :=
  ((Track.all.filter (startLiveFlag s.image)).map fun t s => s.startLive t)
    ++ (Track.all.flatMap fun t => (Input.all.filter (s.showsActive t)).map fun i s => s.firstSample t i)
    ++ (if s.inhibit.pin then [State.assertInhibit] else [])

/-- TB_START (R2): the load has finished and TB counts from 0. -/
def State.startCounting (s : State) : State :=
  if s.clock.power = .loading then
    let s := s.setClock { s.clock with power := .running, refPhase := 0, tb := 0 }
    let s := ((s.raiseStoreInvalid).startAttendance).markSamples true
    s.takeAll s.startEvents
  else s

/-- POWER_ON (R134). -/
def execPowerOn (s : State) : Host.Outcome State Fault Refusal := .next s.powerOn

/-- DEVICE_RESET (R134). -/
def execDeviceReset (s : State) : Host.Outcome State Fault Refusal := .next s.deviceReset

/-- DEVICE_RESET_RELEASE (R2). -/
def execDeviceResetRelease (clksel : BitVec 2) (s : State) : Host.Outcome State Fault Refusal := .next (s.releaseReset clksel)

/-- TB_START (R2). -/
def execTbStart (s : State) : Host.Outcome State Fault Refusal := .next s.startCounting

/-- POWER_LOSS (R177). -/
def execPowerLoss (s : State) : Host.Outcome State Fault Refusal := .next s.powerLoss

end Sys2Proof.Machine
end

