-- ==== Sys2Proof/Machine/Dispatch.lean ====
section
/-! DEFINITION. Dispatch: one arm per command, each one direct call of the command's meaning. -/

namespace Sys2Proof.Machine

def exec (i : Instr) (s : State) : Host.Outcome State Fault Refusal :=
  match i with
  | .powerOn => Sys2Proof.Machine.execPowerOn s
  | .deviceReset => Sys2Proof.Machine.execDeviceReset s
  | .deviceResetRelease clksel => Sys2Proof.Machine.execDeviceResetRelease clksel s
  | .tbStart => Sys2Proof.Machine.execTbStart s
  | .rawChange t input high => Sys2Proof.Machine.execRawChange t input high s
  | .filterAccept t input => Sys2Proof.Machine.execFilterAccept t input s
  | .stuckDeadline t w => Sys2Proof.Machine.execStuckDeadline t w s
  | .injectedEdgeDelivery t input => Sys2Proof.Machine.execInjectedEdgeDelivery t input s
  | .injectionStuckDeadline t w => Sys2Proof.Machine.execInjectionStuckDeadline t w s
  | .quietDeadline t => Sys2Proof.Machine.execQuietDeadline t s
  | .windowDeadline t b => Sys2Proof.Machine.execWindowDeadline t b s
  | .wMaxDeadline t b => Sys2Proof.Machine.execWMaxDeadline t b s
  | .confirmationDeadline number => Sys2Proof.Machine.execConfirmationDeadline number s
  | .cameraFire st => Sys2Proof.Machine.execCameraFire st s
  | .flashFire u => Sys2Proof.Machine.execFlashFire u s
  | .pulseEnd o => Sys2Proof.Machine.execPulseEnd o s
  | .chargeDeadline u => Sys2Proof.Machine.execChargeDeadline u s
  | .ageOutDeadline o => Sys2Proof.Machine.execAgeOutDeadline o s
  | .flinhAsserted => Sys2Proof.Machine.execFlinhAsserted s
  | .flinhReleased => Sys2Proof.Machine.execFlinhReleased s
  | .dataWrite p b => Sys2Proof.Machine.execDataWrite p b s
  | .statusWrite p => Sys2Proof.Machine.execStatusWrite p s
  | .dataRead p => Sys2Proof.Machine.execDataRead p s
  | .attendanceDeadline p => Sys2Proof.Machine.execAttendanceDeadline p s
  | .portReset p => Sys2Proof.Machine.execPortReset p s
  | .portResetRelease p => Sys2Proof.Machine.execPortResetRelease p s
  | .nop p => Sys2Proof.Machine.execNop p s
  | .subscribe p tracks classes => Sys2Proof.Machine.execSubscribe p tracks classes s
  | .bind p station => Sys2Proof.Machine.execBind p station s
  | .unbind p station => Sys2Proof.Machine.execUnbind p station s
  | .setTrackMode p track mode => Sys2Proof.Machine.execSetTrackMode p track mode s
  | .readTrack p track => Sys2Proof.Machine.execReadTrack p track s
  | .readRecord p number => Sys2Proof.Machine.execReadRecord p number s
  | .latestRecords p track => Sys2Proof.Machine.execLatestRecords p track s
  | .readOutputs p => Sys2Proof.Machine.execReadOutputs p s
  | .tagPassage p track tag => Sys2Proof.Machine.execTagPassage p track tag s
  | .relay p target bytes => Sys2Proof.Machine.execRelay p target bytes s
  | .inject p track edges => Sys2Proof.Machine.execInject p track edges s
  | .readFaults p => Sys2Proof.Machine.execReadFaults p s
  | .releaseFault p mask => Sys2Proof.Machine.execReleaseFault p mask s
  | .readTime p => Sys2Proof.Machine.execReadTime p s
  | .maintRead hi lo => Sys2Proof.Machine.execMaintRead hi lo s
  | .maintWrite hi lo data => Sys2Proof.Machine.execMaintWrite hi lo data s
  | .maintReadNext => Sys2Proof.Machine.execMaintReadNext s
  | .maintWriteNext data => Sys2Proof.Machine.execMaintWriteNext data s
  | .commit => Sys2Proof.Machine.execCommit s
  | .commitPage => Sys2Proof.Machine.execCommitPage s
  | .commitEnd => Sys2Proof.Machine.execCommitEnd s
  | .checksum => Sys2Proof.Machine.execChecksum s
  | .unknownCommandByte b => Sys2Proof.Machine.execUnknownCommandByte b s
  | .codeByte b => Sys2Proof.Machine.execCodeByte b s
  | .lineBreak => Sys2Proof.Machine.execLineBreak s
  | .framingError => Sys2Proof.Machine.execFramingError s
  | .powerLoss => Sys2Proof.Machine.execPowerLoss s
  | .byteReceivedInFlight b => Sys2Proof.Machine.execByteReceivedInFlight b s

end Sys2Proof.Machine
end

