-- ==== Sys2Proof/Machine/Clock.lean ====
section
/-! DEFINITION. The part's own time: which of its deadlines are due at the present TB value (R3), and the count of REFCLK periods (R1). -/

namespace Sys2Proof.Machine

/-- The divide ratio a strap setting selects (R1). -/
def divideRatio (clksel : BitVec 2) : Nat :=
  if clksel = 0 then 10 else if clksel = 1 then 12 else if clksel = 2 then 16 else 20

/-- A command is listed when its deadline is due. -/
def dueIf (b : Bool) (c : Instr) : List Instr := if b then [c] else []

/-- The due expiries of a conditioner: its filter, its stuck monitors, and the injected edges of its input. -/
def State.dueOfInput (s : State) (t : Track) (i : Input) : List Instr :=
  let c := s.conditioner t i
  dueIf (isDue s.now (c.filter.map (·.deadline))) (.filterAccept t i)
    ++ (match i with
        | .wheel w =>
          dueIf (isDue s.now c.stuckAt) (.stuckDeadline t w) ++ dueIf (isDue s.now c.injectionStuckAt) (.injectionStuckDeadline t w)
        | .beam _ => [])
    ++ dueIf ((s.tracks.get t).injections.any fun e => e.input == i && e.time == s.now) (.injectedEdgeDelivery t i)

/-- The due expiries of a head detector unit. -/
def State.dueOfHead (s : State) (t : Track) (b : Beam) : List Instr :=
  match (s.head t b).state with
  | .covered h => dueIf (isDue s.now h.wMaxAt) (.wMaxDeadline t b)
  | .gap h _ windowAt => dueIf (isDue s.now (some windowAt)) (.windowDeadline t b) ++ dueIf (isDue s.now h.wMaxAt) (.wMaxDeadline t b)
  | _ => []

/-- The due expiries of a track. -/
def State.dueOfTrack (s : State) (t : Track) : List Instr :=
  Input.all.flatMap (s.dueOfInput t)
    ++ (match s.passages.get t with
        | none => []
        | some p => dueIf (isDue s.now p.quietAt) (.quietDeadline t))
    ++ Beam.all.flatMap (s.dueOfHead t)

/-- The due confirmation deadlines of WAITING records. -/
def State.dueOfRecords (s : State) : List Instr :=
  s.table.records.flatMap fun r => dueIf (isDue s.now r.confirmAt && r.confirmation == .waiting) (.confirmationDeadline r.number)

/-- The due expiries of a station: its entry's fire time, its pulse end, its age-out. -/
def State.dueOfStation (s : State) (st : Station) : List Instr :=
  dueIf (s.dueEntry (.cam st)).isSome (.cameraFire st) ++ dueIf (isDue s.now (s.outputs.cam.get st)) (.pulseEnd (.cam st))
    ++ dueIf (isDue s.now (s.stations.get st).ageOutAt) (.ageOutDeadline (.cam st))

/-- The due expiries of a flash unit: its entry's fire time, its pulse end, its charge and age-out deadlines. -/
def State.dueOfUnit (s : State) (u : FlashId) : List Instr :=
  dueIf (s.dueEntry (.fire u)).isSome (.flashFire u) ++ dueIf (isDue s.now (s.outputs.fire.get u)) (.pulseEnd (.fire u))
    ++ dueIf (isDue s.now (s.units.get u).chargeAt) (.chargeDeadline u)
    ++ dueIf (isDue s.now (s.units.get u).ageOutAt) (.ageOutDeadline (.fire u))

/-- The due end of a page write. -/
def State.dueOfCommit (s : State) : List Instr :=
  match s.maint.commit with
  | none => []
  | some c => dueIf (isDue s.now (some c.pageEndAt)) (if c.page < lastPage then .commitPage else .commitEnd)

/-- Every expiry due at the present TB value (R3). -/
def State.dueNow (s : State) : List Instr :=
  Track.all.flatMap s.dueOfTrack ++ s.dueOfRecords ++ Station.all.flatMap s.dueOfStation ++ FlashId.all.flatMap s.dueOfUnit
    ++ (PortId.all.flatMap fun p => dueIf (isDue s.now (s.ports.get p).attendAt) (.attendanceDeadline p)) ++ s.dueOfCommit

/-- One REFCLK period passes (R1): at the end of each divided period TB advances by one, and a new sample of every pin is due. -/
def State.refclk (s : State) : State :=
  if s.clock.refPhase + 1 < divideRatio s.clock.clksel then s.setClock { s.clock with refPhase := s.clock.refPhase + 1 }
  else (s.setClock { s.clock with refPhase := 0, tb := plus s.now 1 }).markSamples false

/-- The part's own time: the next due expiry, in an order the manual leaves open (R3), or else one REFCLK period. TB stands still, and
no deadline is held, until it has started counting (R2). -/
def State.runOwnTime (s : State) : Host.Outcome State Fault Refusal :=
  if s.clock.power = .running then
    match s.dueNow with
    | [] => .next s.refclk
    | [c] => exec c s
    | c :: d :: rest =>
      let pick := s.chooseIndex (rest.length + 2)
      exec ((c :: d :: rest).getD pick.1 c) pick.2
  else .next s

end Sys2Proof.Machine
end

