-- ==== Sys2Proof/Safety.lean ====
section
/-! DEFINITION. The vocabulary of the claims: what an operation may change (footprints), ports that are ready for a request and what an
answer leaves in them, and the invariants of the part. -/

namespace Sys2Proof.Machine

/-! ### Footprints: what of `s` the state `t` keeps -/

/-- At most what a change of a track's mode may touch changes: the track controls, the flash unit snapshot, the conditioners, what an edge
handed on touches, and the model's choice counter (R138). This much stays as it is. -/
structure OnlyModes (s t : State) : Prop where
  clock : t.clock = s.clock
  inhibit : t.inhibit = s.inhibit
  stations : t.stations = s.stations
  outputs : t.outputs = s.outputs
  bindings : t.bindings = s.bindings
  store : t.store = s.store
  image : t.image = s.image
  maint : t.maint = s.maint
  pending : t.pending = s.pending

/-- At most what a detector event may touch changes: the conditioners, and what an edge handed on touches. -/
structure OnlyDetectors (s t : State) : Prop extends OnlyModes s t where
  tracks : t.tracks = s.tracks
  unitSnapshot : t.unitSnapshot = s.unitSnapshot
  choices : t.choices = s.choices

/-- At most what an edge handed to its consumer may touch changes: passages and their counter, head detector units, records, flash
units, the trigger list, ports and fault capture. -/
structure OnlyEdges (s t : State) : Prop extends OnlyDetectors s t where
  inputs : t.inputs = s.inputs

/-- At most the trigger list, the flash units, the record table and the ports change: what a removal without firing may touch (R129). -/
structure OnlyRemovals (s t : State) : Prop extends OnlyEdges s t where
  passages : t.passages = s.passages
  nextPassage : t.nextPassage = s.nextPassage
  heads : t.heads = s.heads
  faults : t.faults = s.faults

/-- At most the record table and the ports change: what an update of a record may touch (R77, R80, R125). -/
structure OnlyRecords (s t : State) : Prop extends OnlyRemovals s t where
  triggers : t.triggers = s.triggers
  units : t.units = s.units

/-- At most the ports change. -/
structure OnlyPorts (s t : State) : Prop extends OnlyRecords s t where
  table : t.table = s.table

/-- At most fault capture and the ports change: what raising a fault may touch (R169). -/
structure OnlyReports (s t : State) : Prop extends OnlyEdges s t where
  passages : t.passages = s.passages
  nextPassage : t.nextPassage = s.nextPassage
  heads : t.heads = s.heads
  table : t.table = s.table
  units : t.units = s.units
  triggers : t.triggers = s.triggers

/-! ### States and ports the claims speak of -/

/-- TB is counting (R2). -/
abbrev State.Running (s : State) : Prop := s.clock.power = .running

/-- A port that will execute the next frame written to it as it is completed: RUNNING, no byte or frame waiting, the reply slot empty
(R152, R155). -/
abbrev Port.Ready (x : Port) : Prop :=
  x.inReset = false ∧ x.holder = none ∧ x.holding = false ∧ x.assembler = [] ∧ x.reply = none ∧ x.executing = false

/-- A ready port after a request of it has been executed and answered (R155, R156, R159): the reply is in output if no message was in
progress and else waits, the assembler is empty, the port is ATTENDED with the deadline given. -/
def Port.answered (x : Port) (reply : List Byte) (deadline : Option Time) : Port :=
  { x with
    assembler := []
    attendance := .attended
    attendAt := deadline
    reply := some { bytes := reply, inOutput := x.inProgress.isNone }
    inProgress := if x.inProgress.isNone then some { bytes := reply, position := 0, isReply := true } else x.inProgress
    outReg := if x.inProgress.isNone then reply.head? else x.outReg }

/-- The attendance deadline a restart sets now (R159): T_ATTEND × 100 000 ahead, or none where T_ATTEND is 0. -/
def State.restarted (s : State) (p : PortId) : Option Time :=
  if Memory.read s.image (4 + portCode p) = 0 then none
  else some (s.clock.tb + BitVec.ofNat 32 ((Memory.read s.image (4 + portCode p)).toNat * 100000))

/-- The state in which port `p` has just been answered. -/
def State.answers (s : State) (p : PortId) (reply : List Byte) : State :=
  s.setPorts (s.ports.modify p fun x => x.answered reply (s.restarted p))

/-- The frame of a request of port `p` is complete and being performed (R155, step 1): what is offered to the port meanwhile waits behind
the reply. -/
def State.performing (s : State) (p : PortId) (frame : List Byte) : State :=
  s.setPorts (s.ports.modify p fun x => { x with assembler := frame, executing := true })

/-- The request of port `p` has been performed, with the outcome `s`, and is answered (R155, steps 2 to 4, R156, R159): the reply is in output
if no message was in progress and else waits, the assembler restarts, the port is ATTENDED and its deadline restarted. -/
def State.performed (s : State) (p : PortId) (reply : List Byte) : State :=
  s.setPorts (s.ports.modify p fun x => { x with
    reply := some { bytes := reply, inOutput := x.inProgress.isNone }
    inProgress := x.inProgress.or (some { bytes := reply, position := 0, isReply := true })
    outReg := if x.inProgress.isNone then reply.head? else x.outReg
    assembler := x.holder.toList, holder := none, holding := false, attendance := .attended, executing := false
    attendAt := s.restarted p })

/-- The four bytes of a TB value, most significant first (1.7). -/
def bigEndian (t : Time) : List Byte :=
  [t.extractLsb' 24 8, t.extractLsb' 16 8, t.extractLsb' 8 8, t.extractLsb' 0 8]

/-- The frame a request command writes, byte by byte (R162, R178); none for the other commands. -/
def requestBytes : Instr → Option (PortId × List Byte)
  | .nop p => some (p, [0x01, 0])
  | .subscribe p tracks classes => some (p, [0x02, 2, tracks, classes])
  | .bind p station => some (p, [0x03, 1, station])
  | .unbind p station => some (p, [0x04, 1, station])
  | .setTrackMode p track mode => some (p, [0x05, 2, track, mode])
  | .readTrack p track => some (p, [0x06, 1, track])
  | .readRecord p n => some (p, [0x07, 2, n.extractLsb' 8 8, n.extractLsb' 0 8])
  | .latestRecords p track => some (p, [0x08, 1, track])
  | .readOutputs p => some (p, [0x09, 0])
  | .tagPassage p track tag => some (p, [0x0A, 5, track] ++ bigEndian tag)
  | .relay p target bytes => some (p, [0x0B, .ofNat 8 (bytes.length + 1), target] ++ bytes)
  | .inject p track edges =>
    some (p, [0x0C, .ofNat 8 (4 * edges.length + 1), track] ++ edges.flatMap fun e =>
      [e.edge, e.offset.extractLsb' 16 8, e.offset.extractLsb' 8 8, e.offset.extractLsb' 0 8])
  | .readFaults p => some (p, [0x0D, 0])
  | .releaseFault p mask => some (p, [0x0E, 2, mask.extractLsb' 8 8, mask.extractLsb' 0 8])
  | .readTime p => some (p, [0x0F, 0])
  | _ => none

/-- Commands taken one after another: what the last answers. -/
def execAll : List Instr → State → Host.Outcome State Fault Refusal
  | [], s => .next s
  | c :: rest, s =>
    match exec c s with
    | .next t => execAll rest t
    | .fault r => .fault r
    | .refused r => .refused r

/-- The expiries of the part's own deadlines: the sixteen commands that act only at their time (R3). -/
def isExpiry : Instr → Bool
  | .filterAccept _ _ | .stuckDeadline _ _ | .injectedEdgeDelivery _ _ | .injectionStuckDeadline _ _ | .quietDeadline _
  | .windowDeadline _ _ | .wMaxDeadline _ _ | .confirmationDeadline _ | .cameraFire _ | .flashFire _ | .pulseEnd _
  | .chargeDeadline _ | .ageOutDeadline _ | .attendanceDeadline _ | .commitPage | .commitEnd => true
  | _ => false

/-- No two records of the table share a number (R82). -/
abbrev State.DistinctNumbers (s : State) : Prop := (s.table.records.map (·.number)).Nodup

/-- The oldest record of the table with a property, in creation order (R71). -/
def State.oldest (s : State) (q : HeadRecord → Bool) : Option HeadRecord := s.table.records.find? q

/-- A record after the DONE test (R79): PLANNED, not WAITING, no station PENDING and none BOOKED makes it DONE. -/
def HeadRecord.finished (r : HeadRecord) : HeadRecord :=
  if r.state = .planned ∧ r.confirmation ≠ .waiting ∧ ∀ e ∈ r.entries, e.camera ≠ .pending ∧ e.flash ≠ .booked then
    { r with state := .done }
  else r

/-- The state with the records changed one by one. -/
def State.mapRecords (s : State) (f : HeadRecord → HeadRecord) : State :=
  s.setTable { s.table with records := s.table.records.map f }

/-- The record of number `n` is changed by `f` and tested for DONE, and where that makes it DONE its RECORD_FINAL is offered (R79, R80). -/
def State.changesRecord (s : State) (n : Nat) (f : HeadRecord → HeadRecord) : State :=
  match s.oldest fun r => r.number == n with
  | none => s
  | some r =>
    let u := s.mapRecords fun o => if o.number = n then (f o).finished else o
    if (f r).state = .planned ∧ (f r).finished.state = .done then u.offerByTrack .record r.track (recordFinalNotice (f r).finished)
    else u

/-- Every record of the track still overdue becomes MISSING, in order of creation (R67): each is tested for DONE, and the passage unit
tests its close condition (R66). -/
def State.missesOverdue (s : State) (t : Track) : State :=
  (s.table.records.filter fun r => decide (r.track = t ∧ r.overdue = true)).foldl
    (fun u r => (u.changesRecord r.number fun x => { x with confirmation := .missing, confirmAt := none, overdue := false }).testClose t) s

/-! ### Removal without firing -/

/-- A station entry of record `n` after the entries `gone` have left the trigger list without firing (R129). -/
def StationEntry.without (x : StationEntry) (gone : List Entry) (n : Nat) : StationEntry :=
  { x with
    camera := if x.camera = .pending ∧ ∃ e ∈ gone, e.isCamera = true ∧ e.record = n ∧ e.station = x.station then .cancelled else x.camera
    flash := if x.flash = .booked ∧ ∃ e ∈ gone, e.isCamera = false ∧ e.record = n ∧ e.station = x.station then .cancelled else x.flash }

/-- A record after the entries `gone` have left the trigger list without firing: only a PLANNED record's entries change (R77, R129). -/
def HeadRecord.without (r : HeadRecord) (gone : List Entry) : HeadRecord :=
  if r.state = .planned then { r with entries := r.entries.map fun x => x.without gone r.number } else r

/-- The STATION_RESULT notices of one record whose entries `gone` leave the list (R125, R129, R130): station by station in ascending number,
for each station entry that this settles, to the port whose binding is lost, or else to the port that holds the station. -/
def State.tellsResults (s : State) (gone : List Entry) (lost : Option PortId) (r : HeadRecord) : State :=
  Station.all.foldl (fun u st =>
    match r.entries.find? fun x => x.station == st with
    | none => u
    | some x =>
      if r.state = .planned ∧ x.settled = false ∧ (x.without gone r.number).settled = true then
        u.offerToHolder .result (lost.or (u.bindings.get st)) (stationResultNotice r.number (x.without gone r.number))
      else u) s

/-- The flash units after the FLASH entries among `gone` have released their bookings (R111). -/
def State.unitsWithout (s : State) (gone : List Entry) : PerUnit FlashUnit :=
  .tabulate fun f => { s.units.get f with
    bookings := (s.units.get f).bookings.diff ((gone.filter fun e => e.output == .fire f).map (·.fireAt)) }

/-! ### Detectors -/

/-- The conditioner of an input of a track that is not in TEST takes a new active level (R14): the old view of the pin ends, with an inactive
edge where it was ACTIVE; and where the last sample shows the new level a filter toward it starts, which N_FILT = 0 accepts at once. The
sample of the present TB value is used up (notes/assumptions/4.md, the model's choice). -/
def State.takesNewLevel (s : State) (t : Track) (i : Input) : State :=
  let now := s.clock.tb
  let x := (s.inputs.get t).get i
  let n := (s.config t).nFilt.get i
  let quiet : Conditioner := { x with filter := none, stuckAt := none, pin := .inactive, sampleTaken := true }
  let monitor : Option Time := match i with
    | .wheel _ => some (now + BitVec.ofNat 32 ((s.config t).tStuck * 1000))
    | .beam _ => none
  let ended := if x.pin = .active then (s.setConditioner t i quiet).handEdge t i false now else s.setConditioner t i quiet
  if x.raw ≠ (s.config t).activeHigh.get i then ended
  else if n = 0 then (ended.setConditioner t i { quiet with pin := .active, stuckAt := monitor }).handEdge t i true now
  else ended.setConditioner t i { quiet with filter := some { toActive := true, t0 := now, deadline := now + BitVec.ofNat 32 n } }

/-- `u` is `s` after the events `acts`, each once, in some order. Before each the model's counter of open choices may have moved
(notes/assumptions/2.md). -/
def State.InSomeOrder (s : State) (acts : List (State → State)) (u : State) : Prop :=
  ∃ l : List ((State → State) × Nat), (l.map (·.1)).Perm acts ∧ u = l.foldl (fun w a => a.1 (w.setChoices a.2)) s

/-! ### The working image -/

/-- The bits of a byte of the working image that hold a field of R179; the others are unused (R178). -/
def fieldBits (a : Nat) : Byte :=
  if a = 0x001 then 0x03
  else if a ≤ 0x007 ∨ (0x1F0 ≤ a ∧ a ≤ 0x1F5) ∨ a = 0x1FE ∨ a = 0x1FF then 0xFF
  else if (Track.all.any fun t => decide (trackBase t ≤ a ∧ a ≤ trackBase t + 0x25)) then 0xFF
  else if (Station.all.any fun st => decide (a = stationBase st + 3)) then 0x3F
  else if (Station.all.any fun st => decide (stationBase st ≤ a ∧ a ≤ stationBase st + 0x0D)) then 0xFF
  else if (FlashId.all.any fun f => decide (a = unitBase f ∨ (unitBase f + 4 ≤ a ∧ a ≤ unitBase f + 7))) then 0xFF
  else 0

/-- Every setting that a block of the part takes from the working image is the same in `m` and in `n`: the format byte (R141), the track
blocks (R6, R47), the track snapshots with T_SETUP and the station blocks (R139), the flash unit blocks (R140), the start-live flags (R143)
and the attendance times (R159). -/
structure SameSettings (m n : Memory) : Prop where
  format : Memory.read m 0x000 = Memory.read n 0x000
  track : ∀ t, imageTrack m t = imageTrack n t
  snapshot : ∀ t, takeSnapshot m t = takeSnapshot n t
  station : ∀ st, imageStation m st = imageStation n st
  unit : ∀ u, imageUnit m u = imageUnit n u
  startLive : ∀ t, startLiveFlag m t = startLiveFlag n t
  attend : ∀ p, imageAttend m p = imageAttend n p

/-! ### Passages and heads -/

/-- A passage after an accepted wheel edge has moved its last edge time and its quiet deadline (R40): an edge stamped after the time held
does, any other leaves them. -/
def Passage.movedBy (p : Passage) (c : TrackConfig) (stamp : Time) : Passage :=
  if 0 < (stamp - p.lastEdge).toInt then
    { p with lastEdge := stamp, quietAt := some (stamp + BitVec.ofNat 32 (c.tQuiet * 10000)), quietElapsed := false }
  else p

/-- A head detector unit in CLEAR after a head or a blocked interruption, its pending role taken up (R48). -/
def HeadUnit.afterClear (u : HeadUnit) : HeadUnit := { state := .clear, role := u.pendingRole.getD u.role, pendingRole := none }

/-- Every block but the time base, the store, the image, the pins and the model's own fields is as the reset rules say (R18, R45, R70,
R88, R116, R134, R149, R160, R171, R177). -/
structure FreshBlocks (s : State) : Prop where
  /-- R18. -/
  inputs : ∀ t i, ∃ raw, (s.inputs.get t).get i =
    { raw := raw, sampleTaken := false, pin := .inactive, filter := none, stuckAt := none, injection := .inactive,
      injectionStuckAt := none }
  /-- R45. -/
  passages : ∀ t, s.passages.get t = none
  nextPassage : s.nextPassage = 1
  /-- R70. -/
  heads : ∀ t b, (s.heads.get t).get b = { state := .clear, role := .none, pendingRole := none }
  /-- R88. -/
  table : s.table = { records := [], next := 1 }
  /-- R116. -/
  stations : ∀ st, s.stations.get st = { lastFire := none, ageOutAt := none }
  units : ∀ u, s.units.get u = { state := .ready, lastFire := none, chargeAt := none, ageOutAt := none, bookings := [] }
  inhibit : s.inhibit.asserted = false
  /-- R134. -/
  triggers : s.triggers = []
  cam : ∀ st, s.outputs.cam.get st = none
  fire : ∀ u, s.outputs.fire.get u = none
  /-- R149. -/
  tracks : ∀ t, s.tracks.get t = { mode := .out, snapshot := none, injections := [] }
  unitSnapshot : s.unitSnapshot = none
  /-- R160. -/
  ports : ∀ p, ∃ r, s.ports.get p =
    { inReset := r, holder := none, assembler := [], holding := false, overrun := false, reply := none, queue := [], dropped := 0,
      inProgress := none, outReg := none, trackMask := 0, classMask := 0, attendance := .attended, attendAt := none,
      executing := false, lastRead := 0 }
  bindings : ∀ st, s.bindings.get st = none
  /-- R171. -/
  faults : s.faults = { flags := 0, held := none }
  /-- R177. -/
  maint : s.maint =
    { access := s.maint.access, parser := .idle, lastAddress := 0x3FF, code := [], latch := 0, commit := none, sent := [] }

/-! ### Invariants -/

/-- The time base stands at 0, and every block is as its reset left it, until TB counts (R2 and the reset rules; that nothing is received
meanwhile is the model's choice, notes/assumptions/5.md); while it counts, the divider stays within the ratio of the strap (R1). -/
structure ClockInv (s : State) : Prop where
  held : s.clock.power ≠ .running → s.clock.tb = 0 ∧ s.clock.refPhase = 0 ∧ FreshBlocks s
  phase : s.clock.power = .running → s.clock.refPhase < divideRatio s.clock.clksel

/-- The store and the image keep the canonical form, and a commit in flight writes one of the 32 pages of 16 bytes (R172, R176). -/
structure MemoryInv (s : State) : Prop where
  store : Memory.wf s.store
  image : Memory.wf s.image
  commit : ∀ c, s.maint.commit = some c → c.page ≤ 31 ∧ c.bytes.length = 16

/-- The fields of an open passage lie in the ranges of R21; an estimate lies in 500 … 100 000 (R34); a REVERSED passage has an empty
axle queue (R38) and its orphan run at 3 (R36); the discord run does not stand at 3 between events (R44). -/
structure Passage.Sound (p : Passage) : Prop where
  number : 1 ≤ p.number ∧ p.number ≤ 65535
  leading : p.leading ≤ 65535
  trailing : p.trailing ≤ 65535
  accepted : p.accepted ≤ 65535
  rejected : p.rejected ≤ 65535
  heads : p.heads ≤ 65535
  estimate : ∀ v, p.vEst = some v → 500 ≤ v ∧ v ≤ 100000
  discord : p.discord ≤ 2
  orphan : p.orphan ≤ 3
  queue : p.queue.length ≤ 8
  reversed : p.reversed = true → p.queue = [] ∧ p.orphan = 3

/-- The open passages are sound, and the number counter is in its range (R21, R22). -/
structure PassagesInv (s : State) : Prop where
  next : 1 ≤ s.nextPassage ∧ s.nextPassage ≤ 65535
  passages : ∀ t p, s.passages.get t = some p → p.Sound

/-- At most 16 records, no number twice, every number in its range (R82, R81); a WAITING record is PLANNED (R63), and only a WAITING
record holds a confirmation deadline or an overdue mark (R71, R78). -/
structure TableInv (s : State) : Prop where
  size : s.table.records.length ≤ 16
  distinct : s.DistinctNumbers
  numbers : ∀ r ∈ s.table.records, 1 ≤ r.number ∧ r.number ≤ 65535
  next : 1 ≤ s.table.next ∧ s.table.next ≤ 65535
  waiting : ∀ r ∈ s.table.records, r.confirmation = .waiting → r.state = .planned
  settled : ∀ r ∈ s.table.records, r.confirmation ≠ .waiting → r.confirmAt = none ∧ r.overdue = false

/-- The trigger list holds at most 32 entries in the order of their fire times from now (R119), each injection queue at most 16 edges in
the same order (R145), each booking list at most 4 bookings, one for each FLASH entry of the unit (R105). Nothing is listed before TB
counts. -/
structure ListsInv (s : State) : Prop where
  size : s.triggers.length ≤ 32
  ordered : s.triggers.Pairwise fun a b => (a.fireAt - s.clock.tb).toNat ≤ (b.fireAt - s.clock.tb).toNat
  injections : ∀ t, (s.tracks.get t).injections.length ≤ 16
  script : ∀ t, (s.tracks.get t).injections.Pairwise fun a b => (a.time - s.clock.tb).toNat ≤ (b.time - s.clock.tb).toNat
  bookings : ∀ u, (s.units.get u).bookings.length ≤ 4
  booked : ∀ u, (s.units.get u).bookings.Perm ((s.triggers.filter fun e => e.output == .fire u).map (·.fireAt))
  held : s.clock.power ≠ .running → s.triggers = [] ∧ ∀ t, (s.tracks.get t).injections = []

/-- While FLINH is asserted every unit is INHIBITED and no FLASH entry stands in the trigger list; while it is not, no unit is INHIBITED
(R107, R113, R114). -/
structure InhibitInv (s : State) : Prop where
  asserted : s.inhibit.asserted = true → (∀ u, (s.units.get u).state = .inhibited) ∧ ∀ e ∈ s.triggers, e.isCamera = true
  released : s.inhibit.asserted = false → ∀ u, (s.units.get u).state ≠ .inhibited

/-- A track that is OUT holds no passage (R20); a snapshot is held exactly in LIVE and TEST, and injected edges only in TEST (R136,
R145); the flash unit snapshot is in force exactly while a track is LIVE or TEST (R140); a snapshot held has a wheel spacing that passed
validation (R141). -/
structure TracksInv (s : State) : Prop where
  idle : ∀ t, s.mode t = .out → s.passages.get t = none
  snapshot : ∀ t, (s.tracks.get t).snapshot.isSome = true ↔ s.mode t ≠ .out
  script : ∀ t, (s.tracks.get t).injections ≠ [] → s.mode t = .test
  units : s.unitSnapshot.isSome = true ↔ ∃ t, s.mode t ≠ .out
  spacing : ∀ t snap, (s.tracks.get t).snapshot = some snap →
    snap.config.xW1 + 200 ≤ snap.config.xW2 ∧ snap.config.xW2 ≤ snap.config.xW1 + 4000

/-- A port between events: its buffers lie in the ranges of R150; it is holding exactly while its frame is complete, and only then is a
byte in the holder (R152, R153); at a message boundary nothing is left to send (R156); POA shows the byte at the position of the message
in progress; and the message in progress is a reply exactly while the reply slot's is in output. -/
structure Port.Sound (x : Port) : Prop where
  idle : x.executing = false
  assembler : x.assembler.length ≤ 16
  queue : x.queue.length ≤ 32
  dropped : x.dropped ≤ 255
  held : x.holder ≠ none → x.holding = true
  frame : frameComplete x.assembler = x.holding
  boundary : x.inProgress = none → x.reply = none ∧ x.queue = [] ∧ x.outReg = none
  output : ∀ m, x.inProgress = some m → x.outReg = m.bytes[m.position]? ∧ m.position < m.bytes.length
  replyOut : (∃ r, x.reply = some r ∧ r.inOutput = true) ↔ ∃ m, x.inProgress = some m ∧ m.isReply = true
  messages : (∀ n ∈ x.queue, 3 ≤ n.length) ∧ ∀ r, x.reply = some r → 3 ≤ r.bytes.length

/-- Every port is sound, and before TB counts every port is as after its reset (R160). -/
structure PortsInv (s : State) : Prop where
  sound : ∀ p, (s.ports.get p).Sound
  fresh : s.clock.power ≠ .running → ∀ p, s.ports.get p = Port.fresh (s.ports.get p).inReset

end Sys2Proof.Machine
end

