-- ==== Sys2Proof/Certificates/Slice0/Obligations.lean ====
section
/-! DEFINITION. The statements for the provers: what each command does, what it leaves, and what every step keeps. -/

section Statements

open Sys2Proof Sys2Proof.Machine

/-! ### Steps and time -/

/-- The command at the front of the queue is the step: exec of it on the state with the queue's rest. -/
def Obligations.StepRunsTheFrontCommand : Prop :=
  ∀ (s : State) (c : Instr) (rest : List Instr), step (s.setPending (c :: rest)) = exec c (s.setPending rest)

/-- On an empty queue the part's own time runs (notes/assumptions/1.md, the model's choice): before TB counts nothing happens (R2); a due
expiry is taken, one that the order left open picks (R3); where none is due one REFCLK period passes, and TB advances by one at the end
of the period divided by the strap's ratio 10, 12, 16 or 20 (R1), whereupon a new sample of every pin and of FLINH is due (R5, R112).
Nothing else changes. -/
def Obligations.IdleStepRunsOwnTime : Prop :=
  ∀ s : State, s.pending = [] →
    let ratio := if s.clock.clksel = 0 then 10 else if s.clock.clksel = 1 then 12 else if s.clock.clksel = 2 then 16 else 20
    (¬ s.Running → step s = .next s) ∧
    (s.Running → s.dueNow ≠ [] → ∃ c ∈ s.dueNow, ∃ k, step s = exec c (s.setChoices k)) ∧
    (s.Running → s.dueNow = [] → s.clock.refPhase + 1 < ratio →
      step s = .next (s.setClock { s.clock with refPhase := s.clock.refPhase + 1 })) ∧
    (s.Running → s.dueNow = [] → ratio ≤ s.clock.refPhase + 1 →
      ∃ u, step s = .next u ∧ u.clock = { s.clock with refPhase := 0, tb := s.clock.tb + 1 } ∧
        (∀ t i, (u.inputs.get t).get i = { (s.inputs.get t).get i with sampleTaken := false }) ∧
        u.inhibit = { s.inhibit with sampleTaken := false } ∧
        u = ((s.setClock u.clock).setInputs u.inputs).setInhibit u.inhibit)

/-- A deadline's expiry is taken at the moment TB equals it and at no other (R3): the due expiry commands are those of State.dueNow, from which
the part's own time takes them. That an expiry command sent when it is not due changes nothing is the model's reading
(notes/assumptions/6.md). -/
def Obligations.ExpiriesActOnlyAtTheirTime : Prop :=
  ∀ (c : Instr) (s : State), isExpiry c = true → c ∉ s.dueNow → exec c s = .next s

/-- Every command in every state answers a next state, and changes everything but the queue at most: no fault and no refusal stands in
the model. -/
def Obligations.EveryCommandAnswersANextState : Prop :=
  ∀ (c : Instr) (s : State), ∃ u, exec c s = .next u ∧ u.pending = s.pending

/-- No request, pin event or expiry sets, stops or adjusts TB (R2); an output is driven by firings, ended by its pulse end and by a reset,
and by nothing else (R126, R128); the store is written by page writes and by what stops one, the image by the line, the load and a loss
of power (R172, R176). That a device reset leaves the image until the load of its release, and that power-on clears it, are the model's choices
(notes/assumptions/3.md). -/
def Obligations.WhoMayChangeTimeOutputsStoreAndImage : Prop :=
  ∀ (c : Instr) (s u : State), exec c s = .next u →
    ((∀ k, c ≠ .deviceResetRelease k) → c ≠ .powerOn → c ≠ .deviceReset → c ≠ .tbStart → c ≠ .powerLoss → u.clock = s.clock) ∧
    ((∀ st, c ≠ .cameraFire st) → (∀ f, c ≠ .flashFire f) → (∀ o, c ≠ .pulseEnd o) → c ≠ .powerOn → c ≠ .deviceReset →
      c ≠ .powerLoss → u.outputs = s.outputs) ∧
    (c ≠ .commitPage → c ≠ .commitEnd → c ≠ .powerOn → c ≠ .deviceReset → c ≠ .powerLoss → u.store = s.store) ∧
    ((∀ a b, c ≠ .maintRead a b) → (∀ a b d, c ≠ .maintWrite a b d) → (∀ d, c ≠ .maintWriteNext d) → c ≠ .maintReadNext →
      c ≠ .commit → c ≠ .checksum → (∀ b, c ≠ .unknownCommandByte b) → (∀ b, c ≠ .codeByte b) →
      (∀ b, c ≠ .byteReceivedInFlight b) → (∀ k, c ≠ .deviceResetRelease k) → c ≠ .powerOn → c ≠ .powerLoss → u.image = s.image)

/-! ### Power, reset and start -/

/-- POWER_ON, DEVICE_RESET and POWER_LOSS return every block to its reset state (R18, R45, R70, R88, R116, R134, R149, R160, R177), with
TB at 0 (R2), the levels of the pins as they are, and the access state as R175 has it. The store stays, but for a commit in flight. A
part without power takes no device reset; the image is empty without power (notes/assumptions/3.md, the model's choices). -/
def Obligations.ResetsGiveFreshBlocks : Prop :=
  ∀ s : State,
    let fresh (power : Power) (u : State) : Prop :=
      FreshBlocks u ∧ u.clock = { power := power, clksel := s.clock.clksel, refPhase := 0, tb := 0, loadFailed := false } ∧
      (∀ t i, ((u.inputs.get t).get i).raw = ((s.inputs.get t).get i).raw) ∧ u.inhibit.pin = s.inhibit.pin ∧
      (∀ p, (u.ports.get p).inReset = (s.ports.get p).inReset) ∧ (s.maint.commit = none → u.store = s.store)
    (∃ u, exec .powerOn s = .next u ∧ fresh .inReset u ∧ u.maint.access = .waitingCode ∧ u.image = []) ∧
    (∃ u, exec .powerLoss s = .next u ∧ fresh .unpowered u ∧ u.maint.access = .waitingCode ∧ u.image = []) ∧
    (s.clock.power = .unpowered → exec .deviceReset s = .next s) ∧
    (s.clock.power ≠ .unpowered →
      ∃ u, exec .deviceReset s = .next u ∧ fresh .inReset u ∧ u.maint.access = s.maint.access ∧ u.image = s.image)

/-- A reset or a loss of power in the middle of a commit stops it (R177): every byte outside the page in progress is as it was, and each
byte of that page holds its old or its new value. -/
def Obligations.StoppedCommitMixesOnePage : Prop :=
  ∀ (s : State) (w : CommitWrite) (c : Instr), MemoryInv s → s.maint.commit = some w → s.clock.power ≠ .unpowered →
    c = .powerOn ∨ c = .deviceReset ∨ c = .powerLoss →
    ∃ u, exec c s = .next u ∧ u.maint.commit = none ∧
      (∀ a, a < 16 * w.page ∨ 16 * w.page + 16 ≤ a → Memory.read u.store a = Memory.read s.store a) ∧
      ∀ k, k < 16 → Memory.read u.store (16 * w.page + k) = Memory.read s.store (16 * w.page + k) ∨
        some (Memory.read u.store (16 * w.page + k)) = w.bytes[k]?

/-- At the release of RST_N the strap is sampled and the store is copied into the image; a checksum that does not match clears the image
and opens the line (R1, R2, R172, R175). That a release does nothing to a part that is not held in reset, one without power included, is the
model's choice (notes/assumptions/3.md). -/
def Obligations.ReleaseLoadsTheStore : Prop :=
  ∀ (s : State) (k : BitVec 2),
    let sum := ((List.range 0x1FE).map fun a => (Memory.read s.store a).toNat).sum % 65536
    let ok : Bool := sum = 256 * (Memory.read s.store 0x1FE).toNat + (Memory.read s.store 0x1FF).toNat
    let access : Access := if ok then (if s.maint.access = .open then .open else .waitingCode) else .open
    (s.clock.power ≠ .inReset → exec (.deviceResetRelease k) s = .next s) ∧
    (s.clock.power = .inReset → exec (.deviceResetRelease k) s =
      .next (((s.setClock { s.clock with power := .loading, clksel := k, loadFailed := !ok }).setImage
        (if ok then s.store else [])).setMaint { s.maint with access := access }))

/-- TB_START: TB counts from 0 (R2); a failed load raises STORE_INVALID with time 0 (R171); every RUNNING port's attendance deadline is
restarted (R159); a track goes LIVE exactly if its start-live flag is set and its snapshot passes validation (R143). The first samples are
taken: a pin that shows its active level is a raw change at time 0, whose filter ends at N_FILT, and with N_FILT = 0 it is accepted at once,
with the stuck deadline of a wheel input and the head of a beam begun at 0 (R5, R7, R18). FLINH found high is an assertion at time 0: every
unit is INHIBITED (R112, R113). A passage opens at most in a track now LIVE with a wheel input so accepted. The store, the image, the line,
the bindings, the stations, the trigger list and the outputs stay. Stated of a part as its resets leave it, which every state is before TB
counts (EveryStepKeepsTheTimeBase). -/
def Obligations.TbStartBeginsCounting : Prop :=
  ∀ s : State,
    let c (t : Track) (i : Input) : Conditioner := (s.inputs.get t).get i
    let shows (t : Track) (i : Input) : Bool := (c t i).raw == (s.config t).activeHigh.get i
    let n (t : Track) (i : Input) : Nat := (s.config t).nFilt.get i
    let monitor (t : Track) (i : Input) : Option Time := match i with
      | .wheel _ => some (BitVec.ofNat 32 ((s.config t).tStuck * 1000))
      | .beam _ => none
    (s.clock.power ≠ .loading → exec .tbStart s = .next s) ∧
    (s.clock.power = .loading → FreshBlocks s →
      ∃ u, exec .tbStart s = .next u ∧
        u.clock = { s.clock with power := .running, refPhase := 0, tb := 0, loadFailed := false } ∧
        u.faults = (if s.clock.loadFailed = true then
            { flags := 0x80, held := some { kind := .storeInvalid, track := none, item := .none, time := 0 } }
          else { flags := 0, held := none }) ∧
        (∀ p, u.ports.get p = { s.ports.get p with
          attendAt := if (s.ports.get p).inReset = true ∨ Memory.read s.image (4 + portCode p) = 0 then none
            else some (BitVec.ofNat 32 ((Memory.read s.image (4 + portCode p)).toNat * 100000)) }) ∧
        (∀ t, u.mode t = if (Memory.read s.image 0x001).getLsbD (trackCode t) ∧ s.validate t = none then .live else .out) ∧
        (∀ t i, (u.inputs.get t).get i =
          { c t i with
            sampleTaken := true
            filter := if shows t i = true ∧ n t i ≠ 0 then some { toActive := true, t0 := 0, deadline := BitVec.ofNat 32 (n t i) } else none
            pin := if shows t i = true ∧ n t i = 0 then .active else .inactive
            stuckAt := if shows t i = true ∧ n t i = 0 then monitor t i else none }) ∧
        (∀ t b, shows t (.beam b) = true → n t (.beam b) = 0 →
          ∃ h, ((u.heads.get t).get b).state = .covered h ∧ h.tLead = 0 ∧ h.strips = 1) ∧
        (∀ t b, ¬ (shows t (.beam b) = true ∧ n t (.beam b) = 0) → ((u.heads.get t).get b).state = .clear) ∧
        (∀ t, u.passages.get t ≠ none → u.mode t = .live ∧ ∃ w, shows t (.wheel w) = true ∧ n t (.wheel w) = 0) ∧
        u.inhibit = { pin := s.inhibit.pin, asserted := s.inhibit.pin, sampleTaken := true } ∧
        (∀ f, u.units.get f = { s.units.get f with state := if s.inhibit.pin = true then .inhibited else .ready }) ∧
        u.store = s.store ∧ u.image = s.image ∧ u.maint = s.maint ∧ u.bindings = s.bindings ∧ u.outputs = s.outputs ∧
        u.stations = s.stations ∧ u.triggers = s.triggers)

/-! ### Input conditioners -/

/-- RAW_CHANGE: a sample that differs starts a filter with deadline t0 + N_FILT (R7), or cancels the one pending (R8); with N_FILT = 0 the
filter is accepted at once. One sample a TB value (R5), none before TB counts (R2): notes/assumptions/4.md and 5.md, the model's choices. -/
def Obligations.RawChangeStartsOrCancelsAFilter : Prop :=
  ∀ (s : State) (t : Track) (i : Input) (high : Bool),
    let c := (s.inputs.get t).get i
    let toActive : Bool := high == (s.config t).activeHigh.get i
    let conditioned : Bool := c.pin != .inactive
    let n := (s.config t).nFilt.get i
    let sampled := { c with raw := high, sampleTaken := true }
    (¬ s.Running → exec (.rawChange t i high) s = .next (s.setConditioner t i { c with raw := high })) ∧
    (s.Running → c.sampleTaken = true ∨ c.raw = high → exec (.rawChange t i high) s = .next s) ∧
    (s.Running → c.sampleTaken = false → c.raw ≠ high →
      (c.filter = none → toActive ≠ conditioned → n ≠ 0 → exec (.rawChange t i high) s = .next (s.setConditioner t i
        { sampled with filter := some { toActive := toActive, t0 := s.clock.tb, deadline := s.clock.tb + BitVec.ofNat 32 n } })) ∧
      (c.filter = none → toActive ≠ conditioned → n = 0 → exec (.rawChange t i high) s = exec (.filterAccept t i) (s.setConditioner t i
        { sampled with filter := some { toActive := toActive, t0 := s.clock.tb, deadline := s.clock.tb } })) ∧
      (c.filter = none → toActive = conditioned → exec (.rawChange t i high) s = .next (s.setConditioner t i sampled)) ∧
      (c.filter ≠ none → toActive = conditioned →
        exec (.rawChange t i high) s = .next (s.setConditioner t i { sampled with filter := none })) ∧
      (c.filter ≠ none → toActive ≠ conditioned → exec (.rawChange t i high) s = .next (s.setConditioner t i sampled)))

/-- FILTER_ACCEPT: the sample at the deadline decides the filter (R8). Accepted, the pin state changes by the table of R9, a wheel input's
stuck monitor starts at t0 + T_STUCK × 1 000 or stops (R11), and the edge, stamped t0, goes to the consumer unless the track is in TEST
(R10); out of STUCK no edge goes (R13). That the decision uses up the sample of that TB value is the model's choice
(notes/assumptions/4.md). -/
def Obligations.FilterAcceptDecidesAtTheDeadline : Prop :=
  ∀ (s : State) (t : Track) (i : Input) (f : Filter),
    let c := (s.inputs.get t).get i
    let sampled := { c with sampleTaken := true, filter := none }
    let holds : Prop := (c.raw == (s.config t).activeHigh.get i) = f.toActive
    let monitor : Option Time := match i with
      | .wheel _ => some (f.t0 + BitVec.ofNat 32 ((s.config t).tStuck * 1000))
      | .beam _ => none
    let emit (u : State) (active : Bool) : State := if s.mode t = .test then u else u.handEdge t i active f.t0
    s.Running → c.filter = some f → f.deadline = s.clock.tb →
    (¬ holds → exec (.filterAccept t i) s = .next (s.setConditioner t i sampled)) ∧
    (holds → f.toActive = true → c.pin = .inactive →
      exec (.filterAccept t i) s = .next (emit (s.setConditioner t i { sampled with pin := .active, stuckAt := monitor }) true)) ∧
    (holds → f.toActive = false → c.pin = .active →
      exec (.filterAccept t i) s = .next (emit (s.setConditioner t i { sampled with pin := .inactive, stuckAt := none }) false)) ∧
    (holds → f.toActive = false → c.pin = .stuck →
      exec (.filterAccept t i) s = .next (s.setConditioner t i { sampled with pin := .inactive, stuckAt := none }))

/-- INJECTED_EDGE_DELIVERY: the first queued edge of the input whose time is now leaves the queue (R147) and is applied to the injection
state by the table of R15, with the stuck monitor of a wheel input (R16); what the table hands on reaches the consumer stamped now. -/
def Obligations.InjectedEdgeIsAppliedByTheTable : Prop :=
  ∀ (s : State) (t : Track) (i : Input) (e : InjectedEdge) (before after : List InjectedEdge),
    let c := (s.inputs.get t).get i
    let u := s.setTracks (s.tracks.modify t fun x => { x with injections := before ++ after })
    let monitor : Option Time := match i with
      | .wheel _ => some (s.clock.tb + BitVec.ofNat 32 ((s.config t).tStuck * 1000))
      | .beam _ => none
    s.Running → (s.tracks.get t).injections = before ++ e :: after → e.input = i → e.time = s.clock.tb →
    (∀ x ∈ before, ¬ (x.input = i ∧ x.time = s.clock.tb)) →
    exec (.injectedEdgeDelivery t i) s = .next (match e.active, c.injection with
      | true, .inactive =>
        (u.setConditioner t i { c with injection := .active, injectionStuckAt := monitor }).handEdge t i true s.clock.tb
      | false, .active =>
        (u.setConditioner t i { c with injection := .inactive, injectionStuckAt := none }).handEdge t i false s.clock.tb
      | false, .stuck => u.setConditioner t i { c with injection := .inactive, injectionStuckAt := none }
      | _, _ => u)

/-! ### Passages -/

/-- A wheel edge at a track that is OUT, and an inactive one at an IDLE unit, is discarded (R25). An active one at an IDLE unit of a track
in LIVE or TEST opens a passage (R23): the direction by the sensor, the next passage number (R22), the fields of R21 with the opening
edge counted and queued, the quiet deadline (R40), the roles of R24 taken up at once by a unit in CLEAR and else pending (R48), and
PASSAGE_OPENED offered. -/
def Obligations.OpeningEdgeOpensAPassage : Prop :=
  ∀ (s : State) (t : Track) (w : Wheel) (stamp : Time),
    let p : Passage :=
      { number := s.nextPassage, direction := match w with
          | .w1 => .a
          | .w2 => .b
        reversed := false, openTime := stamp, leading := 1, trailing := 0, accepted := 0, rejected := 0, vEst := none, discord := 0,
        orphan := 0, heads := 0, lastEdge := stamp, quietAt := some (stamp + BitVec.ofNat 32 ((s.config t).tQuiet * 10000)),
        quietElapsed := false, tag := none, queue := [stamp] }
    let role (b : Beam) : Role := match w, b with
      | .w1, .ha => .near
      | .w1, .hb => .far
      | .w2, .ha => .far
      | .w2, .hb => .near
    (∀ active, s.mode t = .out → s.wheelEdge t w active stamp = s) ∧
    (s.passages.get t = none → s.wheelEdge t w false stamp = s) ∧
    (s.mode t ≠ .out → s.passages.get t = none →
      let u := s.wheelEdge t w true stamp
      u.passages = s.passages.set t (some p) ∧
      u.nextPassage = (if 65535 ≤ s.nextPassage then 1 else s.nextPassage + 1) ∧
      (∀ b, (u.heads.get t).get b =
        if ((s.heads.get t).get b).state = .clear then { (s.heads.get t).get b with role := role b, pendingRole := none }
        else { (s.heads.get t).get b with pendingRole := some (role b) }) ∧
      (∀ k, k ≠ t → u.heads.get k = s.heads.get k) ∧
      u.ports = (s.offerByTrack .passage t (passageOpenedNotice t p)).ports ∧
      u = (((s.setPassages u.passages).setNextPassage u.nextPassage).setHeads u.heads).setPorts u.ports)

/-- In REVERSED every wheel edge is accepted: a leading or trailing edge adds 1 to its count, saturating, and every edge moves the last
edge time and the quiet deadline; no queue, sample, run or anything else changes (R38). In RUNNING a leading edge is counted and appended to
the axle queue, of which a full one first loses its oldest entry to a rejected sample (R26), and an inactive edge is only accepted into the
passage; both move the last edge time and the quiet deadline (R40), and nothing else changes. -/
def Obligations.CountedEdgesOfAPassage : Prop :=
  ∀ (s : State) (t : Track) (w : Wheel) (active : Bool) (stamp : Time) (p : Passage),
    let q := p.movedBy (s.config t) stamp
    let leaves (q : Passage) : Prop := s.wheelEdge t w active stamp = s.setPassages (s.passages.set t (some q))
    s.mode t ≠ .out → s.passages.get t = some p →
    (p.reversed = true → leaves
      (if active = false then q
       else if w = leadingWheel p.direction then { q with leading := min (p.leading + 1) 65535 }
       else { q with trailing := min (p.trailing + 1) 65535 })) ∧
    (p.reversed = false → active = false → leaves q) ∧
    (p.reversed = false → active = true → w = leadingWheel p.direction → leaves
      { q with leading := min (p.leading + 1) 65535
               rejected := if 8 ≤ p.queue.length then min (p.rejected + 1) 65535 else p.rejected
               queue := (if 8 ≤ p.queue.length then p.queue.tail else p.queue) ++ [stamp] })

/-- A trailing edge in RUNNING removes the stale entries, older than T_PAIR = S_w × 2 000, and counts each as rejected (R27). If that
empties the queue it is an orphan (R28). Else it takes the oldest entry (R29), and with the interval Δ and the sample S_w × 1 000 000 / Δ
is implausible (R30), seeds the estimate (R31), is held back as discordant (R32), reseeds (R33) or updates the estimate by the
quarter-weight mean (R34). It also moves the quiet deadline (R40), and nothing else changes. -/
def Obligations.TrailingEdgesPairOrOrphan : Prop :=
  ∀ (s : State) (t : Track) (w : Wheel) (stamp : Time) (p : Passage) (stale fresh : List Time),
    let c := s.config t
    let spacing := c.xW2 - c.xW1
    let base : Passage := { p.movedBy c stamp with
      trailing := min (p.trailing + 1) 65535, rejected := min (p.rejected + stale.length) 65535, queue := fresh.tail }
    let rejectedOne : Passage := { base with rejected := min (p.rejected + stale.length + 1) 65535 }
    let leaves (q : Passage) : Prop := s.wheelEdge t w true stamp = s.setPassages (s.passages.set t (some q))
    s.mode t ≠ .out → s.passages.get t = some p → p.reversed = false → w = trailingWheel p.direction →
    p.queue = stale ++ fresh → (∀ e ∈ stale, ((spacing * 2000 : Nat) : Int) < (stamp - e).toInt) →
    (∀ e ∈ fresh.head?, (stamp - e).toInt ≤ ((spacing * 2000 : Nat) : Int)) →
    (fresh = [] → p.orphan + 1 < 3 → leaves { rejectedOne with orphan := p.orphan + 1 }) ∧
    (∀ e, fresh.head? = some e →
      let d := (stamp - e).toInt
      let v := spacing * 1000000 / d.toNat
      (d < 1 → leaves rejectedOne) ∧
      (1 ≤ d → 100000 < v → leaves rejectedOne) ∧
      (1 ≤ d → v ≤ 100000 →
        (p.vEst = none → leaves { base with vEst := some v, accepted := min (p.accepted + 1) 65535, discord := 0, orphan := 0 }) ∧
        (∀ est, p.vEst = some est →
          (4 * ((v : Int) - est).natAbs ≤ est → leaves
            { base with vEst := some ((3 * est + v + 2) / 4), accepted := min (p.accepted + 1) 65535, discord := 0, orphan := 0 }) ∧
          (est < 4 * ((v : Int) - est).natAbs → p.discord + 1 < 3 → leaves { rejectedOne with discord := p.discord + 1 }) ∧
          (est < 4 * ((v : Int) - est).natAbs → 3 ≤ p.discord + 1 → leaves
            { base with vEst := some v, accepted := min (p.accepted + 1) 65535, discord := 0, orphan := 0 }))))

/-- The third orphan makes the passage REVERSED (R36): the runs and the estimate are kept, the axle queue is empty. Every record of the
passage that is FORMING or PLANNED is abandoned, in order of creation (R37): its entries leave the trigger list, their bookings are released
(R111), and its station entries with one of them become CANCELLED; STATION_RESULT goes to the holder of each station entry so settled (R125);
the record becomes ABANDONED, with confirmation NONE, no expected far time and no residual, and RECORD_FINAL is offered (R80). The other
records and entries stay. Then REVERSAL is raised with the trailing sensor, and the passage unit tests its close condition (R41). That the edge moves the
quiet deadline first, that the close condition is tested once, after REVERSAL, and that the removals do not make a record DONE is the model's
reading (notes/assumptions/11.md). -/
def Obligations.ThirdOrphanReversesThePassage : Prop :=
  ∀ (s : State) (t : Track) (w : Wheel) (stamp : Time) (p : Passage),
    let c := s.config t
    let abandons (r : HeadRecord) : Bool :=
      decide (r.track = t ∧ r.ofOpenPassage = true ∧ (r.state = .forming ∨ r.state = .planned))
    let abandoned (r : HeadRecord) : HeadRecord := { r.without s.triggers with
      state := .abandoned, confirmation := .none, expectedFar := none, residual := none, confirmAt := none, overdue := false }
    let mine := s.table.records.filter abandons
    let goes (e : Entry) : Bool := mine.any fun r => r.number == e.record
    let reversed : Passage := { p.movedBy c stamp with
      reversed := true, trailing := min (p.trailing + 1) 65535, rejected := min (p.rejected + p.queue.length + 1) 65535
      queue := [], orphan := 3 }
    let changed := (((s.setPassages (s.passages.set t (some reversed))).setTriggers (s.triggers.filter fun e => !goes e)).setUnits
      (s.unitsWithout (s.triggers.filter goes))).mapRecords fun r => if abandons r = true then abandoned r else r
    let told := mine.foldl
      (fun u r => (u.tellsResults s.triggers none r).offerByTrack .record t (recordFinalNotice (abandoned r))) changed
    s.mode t ≠ .out → s.passages.get t = some p → p.reversed = false → w = trailingWheel p.direction → 2 ≤ p.orphan →
    (∀ e ∈ p.queue, (((c.xW2 - c.xW1) * 2000 : Nat) : Int) < (stamp - e).toInt) → s.DistinctNumbers →
    s.wheelEdge t w true stamp =
      (told.raise { kind := .reversal, track := some t, item := .input (.wheel w), time := s.clock.tb }).testClose t

/-- The close test of a passage unit (R41, R62): while the quiet time has not elapsed, a unit of the track is COVERED or GAP, or a record of
the passage is WAITING, the passage stays open. Otherwise it closes (R42): the axle entries left count as rejected, AXLE_MISMATCH is raised if
the counts differ, PASSAGE_CLOSED is offered with the summary, both units return to role NONE, a unit not in CLEAR when it next enters it
(R48), and the unit is IDLE. QUIET_DEADLINE makes quiet elapsed yes and takes the test (R40). The other statements say by the name of the test
where a unit that enters CLEAR or BLOCKED, a record that leaves WAITING and a reversal take it. -/
def Obligations.QuietDeadlineTestsAndCloses : Prop :=
  ∀ (s : State) (t : Track),
    let back (u : HeadUnit) : HeadUnit :=
      if u.state = .clear then { u with role := .none, pendingRole := none } else { u with pendingRole := some .none }
    (s.passages.get t = none → s.testClose t = s) ∧
    (∀ p, s.passages.get t = some p →
      let held : Prop := p.quietElapsed = false ∨ (∃ b, ((s.heads.get t).get b).forming = true) ∨
        ∃ r ∈ s.table.records, r.track = t ∧ r.ofOpenPassage = true ∧ r.confirmation = .waiting
      let last : Passage := { p with rejected := min (p.rejected + p.queue.length) 65535, queue := [] }
      let judged := if p.leading = p.trailing then s
        else s.raise { kind := .axleMismatch, track := some t, item := .none, time := s.clock.tb }
      (held → s.testClose t = s) ∧
      (¬ held → s.testClose t =
        (((judged.offerByTrack .passage t (passageClosedNotice t last s.clock.tb)).setHeads
          (s.heads.set t { ha := back (s.heads.get t).ha, hb := back (s.heads.get t).hb })).setPassages (s.passages.set t none)).mapRecords
            fun r => if r.track = t then { r with ofOpenPassage := false } else r) ∧
      (s.Running → p.quietAt = some s.clock.tb → exec (.quietDeadline t) s =
        .next ((s.setPassages (s.passages.set t (some { p with quietAt := none, quietElapsed := true }))).testClose t)))

/-! ### Heads and records -/

/-- An active edge in CLEAR begins a head (R51), its W_MAX deadline at t_lead + W_MAX, or now if that is not ahead; a deadline set to now
expires at once, as W_MAX_DEADLINE does. In role NEAR the passage counts the head (R43), and a record is allocated and its number held, or
else TABLE_FULL is raised (R52); in role FAR or NONE the head begins without either. -/
def Obligations.ActiveEdgeInClearBeginsAHead : Prop :=
  ∀ (s : State) (t : Track) (b : Beam) (stamp : Time),
    let unit := (s.heads.get t).get b
    let limit := stamp + BitVec.ofNat 32 (s.config t).wMax
    let h : Head := { tLead := stamp, strips := 1, wMaxAt := some (if 0 < (limit - s.clock.tb).toInt then limit else s.clock.tb),
                      limitPassed := false, record := none }
    let covered := s.setHead t b { unit with state := .covered h }
    let expires (u : State) : Prop := exec (.wMaxDeadline t b) u = .next (s.beamEdge t b true stamp)
    s.Running → unit.state = .clear →
    (unit.role ≠ .near → expires covered) ∧
    (∀ p, unit.role = .near → s.passages.get t = some p →
      let counted := covered.setPassages (s.passages.set t (some { p with heads := min (p.heads + 1) 65535 }))
      (∀ n u, counted.allocate t p stamp = some (n, u) →
        expires (u.setHead t b { unit with state := .covered { h with record := some n } })) ∧
      (counted.allocate t p stamp = none →
        expires (counted.raise { kind := .tableFull, track := some t, item := .input (.beam b), time := s.clock.tb })))

/-- An inactive edge in COVERED ends a strip (R53): GAP, with a window of G = ceil(M × 1 000 000 / v_est), at most 50 000, 50 000 without
an estimate and 0 for M = 0 (R54); a window that ends no later than now closes the head at once, as WINDOW_DEADLINE does. An active edge
in GAP merges a strip (R55) or, once the limit has passed, blocks the beam as W_MAX_DEADLINE does in COVERED. An inactive edge in BLOCKED
restores the beam (R59), and the passage unit tests its close condition (R62). The other edges are discarded (R50). That the fault of a beam
blocked by an active edge carries the time of the edge's reception is the model's choice (notes/assumptions/23.md). -/
def Obligations.StripsMergeWithinTheWindow : Prop :=
  ∀ (s : State) (t : Track) (b : Beam) (stamp : Time),
    let unit := (s.heads.get t).get b
    let m := (s.config t).m
    let g := if m = 0 then 0 else match (s.passages.get t).bind (·.vEst) with
      | none => 50000
      | some v => min 50000 ((m * 1000000 + v - 1) / v)
    let ends := stamp + BitVec.ofNat 32 g
    let put (x : HeadState) : State := s.setHead t b { unit with state := x }
    s.Running →
    (∀ h, unit.state = .covered h →
      s.beamEdge t b true stamp = s ∧
      (0 < (ends - s.clock.tb).toInt → s.beamEdge t b false stamp = put (.gap h stamp ends)) ∧
      (¬ 0 < (ends - s.clock.tb).toInt → exec (.windowDeadline t b) (put (.gap h stamp s.clock.tb)) =
        .next (s.beamEdge t b false stamp))) ∧
    (∀ h x a, unit.state = .gap h x a →
      s.beamEdge t b false stamp = s ∧
      (h.limitPassed = false → (∀ n, h.record ≠ some n) →
        s.beamEdge t b true stamp = put (.covered { h with strips := min 15 (h.strips + 1) })) ∧
      (∀ n, h.limitPassed = false → h.record = some n → s.DistinctNumbers →
        s.beamEdge t b true stamp = (put (.covered { h with strips := min 15 (h.strips + 1) })).mapRecords fun r =>
          if r.number = n ∧ r.state = .forming then { r with strips := min 15 (h.strips + 1) } else r) ∧
      (h.limitPassed = true → exec (.wMaxDeadline t b) (put (.covered { h with wMaxAt := some s.clock.tb })) =
        .next (s.beamEdge t b true stamp))) ∧
    (unit.state = .blocked →
      s.beamEdge t b true stamp = s ∧
      s.beamEdge t b false stamp = (s.setHead t b unit.afterClear).testClose t) ∧
    (unit.state = .clear → s.beamEdge t b false stamp = s)

/-- A head closes at its window deadline (R56). In role NONE nothing more is done. In role FAR the centre t_lead + floor(w / 2) is offered
to the WAITING records of the open passage, oldest first (R63): the first within C_TOL becomes MATCHED with the saturated residual (R64) and is
tested for DONE, with RECORD_FINAL where that makes it final (R79, R80); if there is none FAR_UNMATCHED is raised with the track, the beam and
the time (R65); then the records of the track still overdue become MISSING (R67). The unit enters CLEAR, takes up its pending role, and the
passage unit tests its close condition (R41, R62). -/
def Obligations.FarHeadConfirmsTheOldestCandidate : Prop :=
  ∀ (s : State) (t : Track) (b : Beam) (h : Head) (x : Time),
    let unit := (s.heads.get t).get b
    let width := max 1 (x - h.tLead).toInt
    let far := h.tLead + BitVec.ofNat 32 (width.toNat / 2)
    let passage := ((s.passages.get t).map (·.number)).getD 0
    let candidate (r : HeadRecord) : Bool := decide (r.track = t ∧ r.passage = passage ∧ r.confirmation = .waiting ∧
      ∃ e, r.expectedFar = some e ∧ (far - e).toInt.natAbs ≤ (s.config t).cTol)
    let residual (r : HeadRecord) : Int := max (-32768) (min 32767 (far - r.expectedFar.getD 0).toInt)
    let leaves (u : State) : Prop := exec (.windowDeadline t b) s = .next ((u.setHead t b unit.afterClear).testClose t)
    s.Running → unit.state = .gap h x s.clock.tb →
    (unit.role = .none → leaves s) ∧
    (unit.role = .far → s.DistinctNumbers →
      (s.oldest candidate = none → leaves ((s.raise
        { kind := .farUnmatched, track := some t, item := .input (.beam b), time := s.clock.tb }).missesOverdue t)) ∧
      (∀ r, s.oldest candidate = some r → leaves ((s.changesRecord r.number fun o =>
        { o with confirmation := .matched, residual := some (residual r), confirmAt := none, overdue := false }).missesOverdue t)))

/-- A NEAR head that closes with a FORMING record is decided from the passage as it stands (R60, R92): ABANDONED if REVERSED, UNTIMED
without an estimate, SPURIOUS if the length floor(w × v / 1 000 000) is out of L_MIN … L_MAX, each with RECORD_FINAL (R80), else PLANNED,
with the width, length and speed of the table of R92. A PLANNED record is WAITING for its far head at t_mid + τ_far (R95), with its deadline
at C_TOL after that, or now if that is not ahead (R66). Then each station whose block names the track is decided and its plan applied, in
ascending number, each as the state stands after the one before (R73, R96, R103); and a deadline set to now expires at once, as
CONFIRMATION_DEADLINE does. A head without a FORMING record is dropped. The unit enters CLEAR, and the passage unit tests its close condition
(R62). -/
def Obligations.NearHeadCloseDecidesItsRecord : Prop :=
  ∀ (s : State) (t : Track) (b : Beam) (h : Head) (x : Time),
    let unit := (s.heads.get t).get b
    let w := (max 1 (x - h.tLead).toInt).toNat
    let mid := h.tLead + BitVec.ofNat 32 (w / 2)
    let leaves (u : State) : Prop := exec (.windowDeadline t b) s = .next ((u.setHead t b unit.afterClear).testClose t)
    s.Running → unit.state = .gap h x s.clock.tb → unit.role = .near →
    ((∀ r ∈ s.table.records, h.record = some r.number → r.state ≠ .forming) → leaves s) ∧
    (∀ (p : Passage) (snap : TrackSnapshot) (r : HeadRecord), s.passages.get t = some p → (s.tracks.get t).snapshot = some snap →
      s.mode t ≠ .out → h.record = some r.number → r ∈ s.table.records → r.state = .forming → s.DistinctNumbers →
      let shut : HeadRecord := { r with tTrail := some x, strips := h.strips, width := w }
      let put (r' : HeadRecord) : State := s.mapRecords fun o => if o.number = r.number then r' else o
      let ends (r' : HeadRecord) : Prop := leaves ((put r').offerByTrack .record r.track (recordFinalNotice r'))
      (p.reversed = true → ends { shut with state := .abandoned, length := 0, speed := 0 }) ∧
      (p.reversed = false → p.vEst = none → ends { shut with state := .untimed, length := 0, speed := 0 }) ∧
      (∀ v, p.reversed = false → p.vEst = some v →
        let len := min 65535 (w * v / 1000000)
        let far := mid + BitVec.ofNat 32 (((snap.config.xHB - snap.config.xHA) * 1000000 + v / 2) / v)
        let limit := far + BitVec.ofNat 32 snap.config.cTol
        let confirmAt := if 0 < (limit - s.clock.tb).toInt then limit else s.clock.tb
        let filled := Station.all.foldl (fun u st => match snap.stations.get st with
          | none => u
          | some c => u.applyPlan t r.number st c (u.decideStation t snap p.direction v mid st c))
          (put { shut with state := .planned, length := len, speed := v, confirmation := .waiting, expectedFar := some far
                           confirmAt := some confirmAt })
        (len < snap.config.lMin ∨ snap.config.lMax < len → ends { shut with state := .spurious, length := len, speed := v }) ∧
        (snap.config.lMin ≤ len → len ≤ snap.config.lMax →
          (confirmAt ≠ s.clock.tb → leaves filled) ∧
          (confirmAt = s.clock.tb → ∃ u, exec (.confirmationDeadline r.number) filled = .next u ∧ leaves u))))

/-- W_MAX_DEADLINE in GAP sets limit passed and discards the deadline. In COVERED the unit enters BLOCKED and HEAD_BLOCKED is raised with the
track, the beam and the time; in role NEAR a FORMING record of the head becomes BLOCKED and RECORD_FINAL is offered (R58, R80), and in role FAR
the overdue records of the track become MISSING (R67). The passage unit then tests its close condition (R41, R62). -/
def Obligations.WMaxDeadlineBlocksTheBeam : Prop :=
  ∀ (s : State) (t : Track) (b : Beam) (h : Head),
    let unit := (s.heads.get t).get b
    let blocked := (s.setHead t b { unit with state := .blocked }).raise
      { kind := .headBlocked, track := some t, item := .input (.beam b), time := s.clock.tb }
    let leaves (u : State) : Prop := exec (.wMaxDeadline t b) s = .next (u.testClose t)
    s.Running → h.wMaxAt = some s.clock.tb →
    (∀ x a, unit.state = .gap h x a → exec (.wMaxDeadline t b) s =
      .next (s.setHead t b { unit with state := .gap { h with wMaxAt := none, limitPassed := true } x a })) ∧
    (unit.state = .covered h →
      (unit.role = .none → leaves blocked) ∧
      (unit.role = .near → (∀ r ∈ s.table.records, h.record = some r.number → r.state ≠ .forming) → leaves blocked) ∧
      (∀ r ∈ s.table.records, unit.role = .near → h.record = some r.number → r.state = .forming → s.DistinctNumbers →
        leaves ((blocked.mapRecords fun o => if o.number = r.number then { o with state := .blocked } else o).offerByTrack .record r.track
          (recordFinalNotice { r with state := .blocked }))) ∧
      (unit.role = .far → s.DistinctNumbers → leaves (blocked.missesOverdue t)))

/-- A request for a record (R82): a free slot is used; else the oldest final record is evicted (R84); else, with every record open, the
head is refused. The number taken is the first from the next number on that no record held has, and the counter stands one beyond it,
from 65 535 to 1 (R81); the number is chosen after the eviction, so that the evicted record's number counts as free, which is the model's
reading (notes/assumptions/11.md). The new record joins the tail, FORMING, with the fields of R52 and the passage's tag. -/
def Obligations.AllocationTakesASlotAndAFreeNumber : Prop :=
  ∀ (s : State) (t : Track) (p : Passage) (stamp : Time), s.table.records.length ≤ 16 →
    let held := s.table.records
    let final (r : HeadRecord) : Bool := r.state != .forming && r.state != .planned
    (s.allocate t p stamp = none ↔ held.length = 16 ∧ ∀ r ∈ held, final r = false) ∧
    ∀ n u, s.allocate t p stamp = some (n, u) →
      ∃ count : Nat → Nat, ∃ room : List HeadRecord, ∃ k : Nat,
        (held.length < 16 → room = held) ∧
        (held.length = 16 → ∃ before old after, held = before ++ old :: after ∧ final old = true ∧
          (∀ r ∈ before, final r = false) ∧ room = before ++ after) ∧
        count 0 = s.table.next ∧ (∀ j, count (j + 1) = if 65535 ≤ count j then 1 else count j + 1) ∧
        n = count k ∧ (∀ j, j < k → ∃ r ∈ room, r.number = count j) ∧ (∀ r ∈ room, r.number ≠ n) ∧
        u = s.setTable { next := count (k + 1), records := room ++
          [{ number := n, track := t, direction := p.direction, passage := p.number, test := s.mode t == .test, state := .forming,
             tLead := stamp, tTrail := none, strips := 1, width := 0, length := 0, speed := 0, confirmation := .none,
             expectedFar := none, residual := none, tag := p.tag, entries := [], confirmAt := none, overdue := false,
             ofOpenPassage := true }] }

/-- CONFIRMATION_DEADLINE of a WAITING record (R66): while the FAR unit of its track is COVERED or GAP in role FAR the record becomes
overdue (R67); otherwise MISSING, keeping its expected far time, and is tested for DONE, with RECORD_FINAL where that makes it final (R79,
R80); then the passage unit tests its close condition (R41). -/
def Obligations.ConfirmationDeadlineMakesMissingOrOverdue : Prop :=
  ∀ (s : State) (r : HeadRecord),
    let under : Prop := ∃ b, ((s.heads.get r.track).get b).role = .far ∧ ((s.heads.get r.track).get b).forming = true
    s.Running → r ∈ s.table.records → s.DistinctNumbers → r.confirmation = .waiting → r.confirmAt = some s.clock.tb →
    (under → exec (.confirmationDeadline r.number) s =
      .next (s.mapRecords fun o => if o.number = r.number then { r with confirmAt := none, overdue := true } else o)) ∧
    (¬ under → exec (.confirmationDeadline r.number) s = .next ((s.changesRecord r.number fun o =>
      { o with confirmation := .missing, confirmAt := none, overdue := false }).testClose r.track))

/-! ### Planning, firing and removal -/

/-- A station of a PLANNED record is decided by the first step that applies (R96): not enabled, not attended by an ATTENDED port, beyond
the horizon of 2 000 000 µs (R97), too late for T_SETUP (R98), occupied within Q_s of a recent firing or a pending trigger (R99), in
conflict for a REQUIRED flash set that is not free at t_c (R100, R106), without room for its 1 + k entries (R101), or else PENDING. The
trigger and flash times are T = t_c − δ and t_c = t_mid + τ, with τ = d × 1 000 000 / v to nearest, halves up (R94). -/
def Obligations.StationIsDecidedByTheFirstStep : Prop :=
  ∀ (s : State) (t : Track) (snap : TrackSnapshot) (dir : Direction) (v : Nat) (mid : Time) (st : Station) (c : StationConfig),
    let d := match dir with
      | .a => c.x - snap.config.xHA
      | .b => snap.config.xHB - c.x
    let go := (d * 1000000 + v / 2) / v
    let centre := mid + BitVec.ofNat 32 go
    let trig := centre - BitVec.ofNat 32 c.delta
    let units := FlashId.all.filter fun u => c.flashSet.getLsbD (unitCode u)
    let recharge (u : FlashId) : Nat := (s.unitConfig u).recharge
    let attended : Prop := ∃ p, s.bindings.get st = some p ∧ (s.ports.get p).attendance = .attended
    let busy : Prop :=
      (∃ f, (s.stations.get st).lastFire = some f ∧ (s.stations.get st).ageOutAt ≠ none ∧ (trig - f).toInt.natAbs < c.spacing) ∨
      ∃ e ∈ s.triggers, e.output = .cam st ∧ (trig - e.fireAt).toInt.natAbs < c.spacing
    let free (u : FlashId) : Prop :=
      (s.unitConfig u).enabled = true ∧ s.inhibit.asserted = false ∧
      (∀ f, (s.units.get u).lastFire = some f → (s.units.get u).ageOutAt ≠ none → (recharge u : Int) ≤ (centre - f).toInt) ∧
      (∀ b ∈ (s.units.get u).bookings, recharge u ≤ (centre - b).toInt.natAbs) ∧ (s.units.get u).bookings.length < 4
    let lights : Prop := c.policy ≠ .none ∧ s.mode t ≠ .test
    let answer := s.decideStation t snap dir v mid st c
    let is (camera : CameraOutcome) (flash : FlashResult) : Prop := answer.camera = camera ∧ answer.flash = flash
    let placed (flash : FlashResult) (needed : Nat) : Prop :=
      (s.triggers.length + needed ≤ 32 → is .pending flash) ∧
      (32 < s.triggers.length + needed → is .missedListFull (if flash = .booked then .notUsed else flash))
    answer.trigger = trig ∧ answer.flashTime = centre ∧
    (c.enabled = false → is .notServed .notUsed) ∧
    (c.enabled = true → ¬ attended → is .unattended .notUsed) ∧
    (c.enabled = true → attended →
      (2000000 < go → is .missedHorizon .notUsed) ∧
      (go ≤ 2000000 → (trig - s.clock.tb).toInt < snap.tSetup → is .missedLate .notUsed) ∧
      (go ≤ 2000000 → (snap.tSetup : Int) ≤ (trig - s.clock.tb).toInt →
        (busy → is .missedBusy .notUsed) ∧
        (¬ busy → c.policy = .none → placed .notUsed 1) ∧
        (¬ busy → c.policy ≠ .none → s.mode t = .test → placed .suppressed 1) ∧
        (¬ busy → lights → (∀ u ∈ units, free u) → placed .booked (1 + units.length)) ∧
        (¬ busy → lights → ¬ (∀ u ∈ units, free u) → c.policy = .required → is .conflict .unavailable) ∧
        (¬ busy → lights → ¬ (∀ u ∈ units, free u) → c.policy ≠ .required → placed .unavailable 1)))

/-- A decided station's effects. At step 8 the CAMERA entry and a FLASH entry for each booked unit are inserted, each after the entries
whose fire time from now is not later (R119, R120), each booked unit takes t_c into its booking list (R105), the record gets its station
entry, and HEAD_PLANNED is offered to the port that holds the station (R102). MISSED_LIST_FULL raises LIST_FULL (R101); any other step
only writes the entry. -/
def Obligations.DecidedStationReservesAndReports : Prop :=
  ∀ (s : State) (t : Track) (n : Nat) (st : Station) (c : StationConfig) (p : StationPlan),
    let now := s.clock.tb
    let place (l : List Entry) (e : Entry) : List Entry :=
      l.takeWhile (fun x => decide ((x.fireAt - now).toNat ≤ (e.fireAt - now).toNat)) ++
        e :: l.dropWhile (fun x => decide ((x.fireAt - now).toNat ≤ (e.fireAt - now).toNat))
    let booked := if p.flash = .booked then FlashId.all.filter fun u => c.flashSet.getLsbD (unitCode u) else []
    let entry (o : OutputLine) (x : Time) : Entry := { fireAt := x, output := o, record := n, station := st }
    let written : StationEntry := { station := st, camera := p.camera, flash := p.flash,
                                    trigger := if p.camera = .pending then some p.trigger else none, fired := 0 }
    let noted := s.mapRecords fun r => if r.number = n then { r with entries := r.entries ++ [written] } else r
    let u := s.applyPlan t n st c p
    (p.camera = .pending →
      u.triggers = (booked.map fun f => entry (.fire f) p.flashTime).foldl place (place s.triggers (entry (.cam st) p.trigger)) ∧
      (∀ f, u.units.get f = if f ∈ booked then
          { s.units.get f with bookings :=
              (s.units.get f).bookings.takeWhile (fun x => decide ((x - now).toNat ≤ (p.flashTime - now).toNat)) ++
              p.flashTime :: (s.units.get f).bookings.dropWhile (fun x => decide ((x - now).toNat ≤ (p.flashTime - now).toNat)) }
        else s.units.get f) ∧
      u = ((noted.setTriggers u.triggers).setUnits u.units).setPorts
        (s.offerToHolder .plan (s.bindings.get st) (headPlannedNotice n st p.trigger p.flash)).ports) ∧
    (p.camera = .missedListFull →
      u = noted.raise { kind := .listFull, track := some t, item := .record n, time := now }) ∧
    (p.camera ≠ .pending → p.camera ≠ .missedListFull → u = noted)

/-- CAMERA_FIRE (R123): the station's entry whose time is now leaves the list; the output pulses for P_s from now, or to the later of the
pulse end held and the new one (R126, R127); the station's last fire and age-out deadline are set (R109). A PENDING camera outcome of its
station entry becomes FIRED; an entry this settles is reported with STATION_RESULT to the port that holds the station (R125), and the
record is tested for DONE (R79), with RECORD_FINAL where that makes it final (R80). -/
def Obligations.CameraFireExposesAndReports : Prop :=
  ∀ (s : State) (st : Station) (before after : List Entry) (e : Entry),
    let now := s.clock.tb
    let new := now + BitVec.ofNat 32 (s.stationInForce st).pulse
    let ends := match s.outputs.cam.get st with
      | none => new
      | some old => if 0 < (old - new).toInt then old else new
    let exposed := ((s.setTriggers (before ++ after)).setOutputs { s.outputs with cam := s.outputs.cam.set st (some ends) }).setStations
      (s.stations.set st { lastFire := some now, ageOutAt := some (now + 2000000) })
    s.Running → s.triggers = before ++ e :: after → e.output = .cam st → e.fireAt = now →
    (∀ x ∈ before, ¬ (x.output = .cam st ∧ x.fireAt = now)) →
    (∃ u, exec (.cameraFire st) s = .next u ∧ u = (exposed.setTable u.table).setPorts u.ports) ∧
    (∀ r x, s.DistinctNumbers → r ∈ s.table.records → r.number = e.record → r.state = .planned →
      x ∈ r.entries → x.station = e.station → (r.entries.map (·.station)).Nodup →
      let fired : StationEntry := { x with camera := if x.camera = .pending then .fired else x.camera }
      let r' : HeadRecord := { r with entries := r.entries.map fun y => if y.station = e.station then fired else y }
      let told := if x.camera = .pending ∧ x.flash ≠ .booked then
          s.offerToHolder .result (s.bindings.get e.station) (stationResultNotice r.number fired) else s
      let final := if r'.finished.state = .done then told.offerByTrack .record r.track (recordFinalNotice r'.finished) else told
      exec (.cameraFire st) s = .next ((exposed.setTable { s.table with
        records := s.table.records.map fun o => if o.number = r.number then r'.finished else o }).setPorts final.ports))

/-- FLASH_FIRE (R124): the unit's entry whose time is now leaves the list; the fire output pulses for 50 µs; the unit is CHARGING until
now + R_u, its last fire and age-out deadline are set and its booking at now is gone (R108). The unit joins the fired mask of its station
entry, whose BOOKED flash result becomes FIRED when no other FLASH entry of that record and station is left; an entry this settles is
reported (R125), and the record is tested for DONE (R79). -/
def Obligations.FlashFireDischargesAndReports : Prop :=
  ∀ (s : State) (f : FlashId) (before after : List Entry) (e : Entry),
    let now := s.clock.tb
    let unit : FlashUnit :=
      { state := .charging, lastFire := some now, chargeAt := some (now + BitVec.ofNat 32 (s.unitConfig f).recharge),
        ageOutAt := some (now + 2000000), bookings := (s.units.get f).bookings.erase now }
    let lit := ((s.setTriggers (before ++ after)).setOutputs { s.outputs with fire := s.outputs.fire.set f (some (now + 50)) }).setUnits
      (s.units.set f unit)
    let last : Prop := ∀ x ∈ before ++ after, x.isCamera = false → ¬ (x.record = e.record ∧ x.station = e.station)
    s.Running → s.triggers = before ++ e :: after → e.output = .fire f → e.fireAt = now →
    (∀ x ∈ before, ¬ (x.output = .fire f ∧ x.fireAt = now)) →
    (∃ u, exec (.flashFire f) s = .next u ∧ u = (lit.setTable u.table).setPorts u.ports) ∧
    (∀ r x, s.DistinctNumbers → r ∈ s.table.records → r.number = e.record → r.state = .planned →
      x ∈ r.entries → x.station = e.station → (r.entries.map (·.station)).Nodup →
      ∃ fired : StationEntry, (last → fired.flash = if x.flash = .booked then .fired else x.flash) ∧ (¬ last → fired.flash = x.flash) ∧
      fired = { x with fired := x.fired ||| (1 <<< unitCode f), flash := fired.flash } ∧
      let r' : HeadRecord := { r with entries := r.entries.map fun y => if y.station = e.station then fired else y }
      let told := if x.settled = false ∧ fired.settled = true then
          s.offerToHolder .result (s.bindings.get e.station) (stationResultNotice r.number fired) else s
      let final := if r'.finished.state = .done then told.offerByTrack .record r.track (recordFinalNotice r'.finished) else told
      exec (.flashFire f) s = .next ((lit.setTable { s.table with
        records := s.table.records.map fun o => if o.number = r.number then r'.finished else o }).setPorts final.ports))

/-- STUCK_DEADLINE of an ACTIVE pin, and INJECTION_STUCK_DEADLINE of an ACTIVE injection state, make it STUCK and raise WHEEL_STUCK for the
track and the input with the time of the expiry (R12, R16); no edge is emitted. PULSE_END returns the output low (R126); CHARGE_DEADLINE makes
a CHARGING unit READY and leaves an INHIBITED one so (R107); and AGE_OUT_DEADLINE discards the age-out deadline and keeps the last fire
(R110). Nothing else changes. -/
def Obligations.StuckPulseChargeAndAgeDeadlines : Prop :=
  ∀ (s : State) (t : Track) (w : Wheel) (st : Station) (f : FlashId), s.Running →
    let c := (s.inputs.get t).get (.wheel w)
    let stuck : RaisedFault := { kind := .wheelStuck, track := some t, item := .input (.wheel w), time := s.clock.tb }
    (c.stuckAt = some s.clock.tb → c.pin = .active → exec (.stuckDeadline t w) s =
      .next ((s.setConditioner t (.wheel w) { c with pin := .stuck, stuckAt := none }).raise stuck)) ∧
    (c.injectionStuckAt = some s.clock.tb → c.injection = .active → exec (.injectionStuckDeadline t w) s =
      .next ((s.setConditioner t (.wheel w) { c with injection := .stuck, injectionStuckAt := none }).raise stuck)) ∧
    (s.outputs.cam.get st = some s.clock.tb → exec (.pulseEnd (.cam st)) s =
      .next (s.setOutputs { s.outputs with cam := s.outputs.cam.set st none })) ∧
    (s.outputs.fire.get f = some s.clock.tb → exec (.pulseEnd (.fire f)) s =
      .next (s.setOutputs { s.outputs with fire := s.outputs.fire.set f none })) ∧
    ((s.units.get f).chargeAt = some s.clock.tb → exec (.chargeDeadline f) s = .next (s.setUnits (s.units.set f
      { s.units.get f with chargeAt := none
                           state := match (s.units.get f).state with
                             | .charging => .ready
                             | x => x }))) ∧
    ((s.stations.get st).ageOutAt = some s.clock.tb → exec (.ageOutDeadline (.cam st)) s =
      .next (s.setStations (s.stations.set st { s.stations.get st with ageOutAt := none }))) ∧
    ((s.units.get f).ageOutAt = some s.clock.tb → exec (.ageOutDeadline (.fire f)) s =
      .next (s.setUnits (s.units.set f { s.units.get f with ageOutAt := none })))

/-- A removal without firing takes every entry selected out of the trigger list (R129), releases the bookings of its FLASH entries (R111),
and updates the station entries they served: a PENDING camera outcome whose CAMERA entry went becomes CANCELLED, and so does a BOOKED flash
result whose FLASH entries went. Record by record in order of creation, and station by station in ascending number, a station entry so
settled offers STATION_RESULT to the port whose binding is lost, where that is the cause, and else to the holder of the station (R125, R130);
the record is tested for DONE (R79), and RECORD_FINAL is offered by track and class where that makes it final (R80). Nothing else changes.
FLINH_ASSERTED, UNBIND, PORT_RESET and a change to OUT remove by this (their statements). -/
def Obligations.RemovalWithoutFiringCancels : Prop :=
  ∀ (s : State) (sel : Entry → Bool) (lost : Option PortId), s.DistinctNumbers →
    let gone := s.triggers.filter sel
    let touched (r : HeadRecord) : Bool := decide (r.state = .planned) && gone.any fun e => e.record == r.number
    let after (r : HeadRecord) : HeadRecord := if touched r then (r.without gone).finished else r
    let changed := ((s.setTriggers (s.triggers.filter fun e => !sel e)).setUnits (s.unitsWithout gone)).mapRecords after
    s.removeEntries sel lost true = (s.table.records.filter touched).foldl
      (fun u r =>
        let told := u.tellsResults gone lost r
        if (after r).state = .done then told.offerByTrack .record r.track (recordFinalNotice (after r)) else told) changed

/-- FLINH_ASSERTED makes every unit INHIBITED and removes every FLASH entry and every CAMERA entry of a REQUIRED station (R113).
FLINH_RELEASED makes an INHIBITED unit CHARGING if its charge deadline is present, else READY, and restores nothing (R114). Before TB
counts the pin alone changes, and the first sample takes it (R112); one sample a TB value (notes/assumptions/4.md and 5.md, the model's
choices). -/
def Obligations.FlashInhibitStopsAndFreesTheUnits : Prop :=
  ∀ s : State,
    let stops (e : Entry) : Bool := match e.output with
      | .fire _ => true
      | .cam _ => (s.stationInForce e.station).policy == .required
    let taken (high : Bool) : Inhibit := { pin := high, asserted := high, sampleTaken := true }
    let inhibited := (s.setInhibit (taken true)).setUnits (.tabulate fun f => { s.units.get f with state := .inhibited })
    (¬ s.Running → exec .flinhAsserted s = .next (s.setInhibit { s.inhibit with pin := true }) ∧
      exec .flinhReleased s = .next (s.setInhibit { s.inhibit with pin := false })) ∧
    (s.Running → s.inhibit.sampleTaken = false → s.inhibit.asserted = false →
      exec .flinhAsserted s = .next (inhibited.removeEntries stops none true)) ∧
    (s.Running → s.inhibit.sampleTaken = false → s.inhibit.asserted = true →
      ∃ u, exec .flinhReleased s = .next u ∧ u = (s.setInhibit (taken false)).setUnits u.units ∧
        ∀ f, u.units.get f = { s.units.get f with
          state := if (s.units.get f).state = .inhibited then (if (s.units.get f).chargeAt = none then .ready else .charging)
                   else (s.units.get f).state }) ∧
    (s.Running → s.inhibit.sampleTaken = true ∨ s.inhibit.asserted = true → exec .flinhAsserted s = .next s) ∧
    (s.Running → s.inhibit.sampleTaken = true ∨ s.inhibit.asserted = false → exec .flinhReleased s = .next s)

/-! ### Client ports -/

/-- A notice routed by track and class is offered to every port whose track mask holds the track and whose class mask holds the class, and one
routed to the holder of a binding to that port alone, if its class mask holds the class; every other port stays as it is (R164). A notice
offered to a port (R158): IN_RESET, LAPSED or with 32 notices queued, the port drops it, and the dropped count goes up to at most 255. Else it
joins the queue's tail with the dropped count in its second byte, which returns to 0; and on an idle port (R156) it is loaded at once, unless
the port is executing a frame, whose reply goes first (R155). -/
def Obligations.NoticesAreRoutedQueuedOrDropped : Prop :=
  ∀ (s : State) (n : Notice) (c : NoticeClass) (t : Track) (holder : Option PortId) (x : Port),
    let wants (p : PortId) : Bool := (s.ports.get p).classMask.getLsbD (match c with
      | .passage => 0 | .plan => 1 | .result => 2 | .record => 3 | .fault => 4)
    let follows (p : PortId) : Bool := (s.ports.get p).trackMask.getLsbD (match t with
      | .t0 => 0 | .t1 => 1)
    let bytes : List Byte := n.kind :: .ofNat 8 x.dropped :: .ofNat 8 n.body.length :: n.body
    let refused : Prop := x.inReset = true ∨ x.attendance = .lapsed ∨ 32 ≤ x.queue.length
    (∃ u, s.offerByTrack c t n = s.setPorts u ∧
      ∀ p, u.get p = if wants p = true ∧ follows p = true then (s.ports.get p).offer n else s.ports.get p) ∧
    (∃ u, s.offerToHolder c holder n = s.setPorts u ∧
      ∀ p, u.get p = if holder = some p ∧ wants p = true then (s.ports.get p).offer n else s.ports.get p) ∧
    (refused → x.offer n = { x with dropped := min (x.dropped + 1) 255 }) ∧
    (¬ refused → x.executing = true ∨ x.inProgress ≠ none → x.offer n = { x with queue := x.queue ++ [bytes], dropped := 0 }) ∧
    (¬ refused → x.executing = false → x.inProgress = none → x.reply = none → x.queue = [] →
      x.offer n = { x with dropped := 0, inProgress := some { bytes := bytes, position := 0, isReply := false },
                           outReg := some n.kind })

/-- The bodies of the notices (R178), each with its kind. PASSAGE_OPENED: the passage number, the track, the direction and the open time.
PASSAGE_CLOSED: the passage number; the estimate, or 0, in bits 0 to 16 and track, direction, final state and tag present in bits 20 to 23 of
three bytes; the open and the close time; both edge counts; accepted samples, rejected samples and head count, at most 255; the tag, or 0.
HEAD_PLANNED: the record, the station, the trigger time and the flash result. STATION_RESULT: the record, the station, both outcomes in one byte
and the fired mask. RECORD_FINAL: the record, state and confirmation in one byte, and the residual in two's complement, 0 unless present. -/
def Obligations.NoticeBodiesHaveTheirLayout : Prop :=
  ∀ (t : Track) (p : Passage) (closed trigger : Time) (n : Nat) (st : Station) (f : FlashResult) (x : StationEntry) (r : HeadRecord),
    let pair (n : Nat) : List Byte := [.ofNat 8 (n / 256), .ofNat 8 n]
    let flag (b : Bool) (weight : Nat) : Nat := if b then weight else 0
    let track : Nat := match t with
      | .t0 => 0 | .t1 => 1
    let direction : Nat := match p.direction with
      | .a => 0 | .b => 1
    let station (st : Station) : Byte := match st with
      | .s0 => 0 | .s1 => 1 | .s2 => 2 | .s3 => 3 | .s4 => 4 | .s5 => 5 | .s6 => 6 | .s7 => 7
    let flash (f : FlashResult) : Nat := match f with
      | .notUsed => 0 | .suppressed => 1 | .booked => 2 | .fired => 3 | .unavailable => 4 | .cancelled => 5
    let camera (c : CameraOutcome) : Nat := match c with
      | .notServed => 0 | .unattended => 1 | .pending => 2 | .fired => 3 | .missedLate => 4 | .missedHorizon => 5 | .missedBusy => 6
      | .missedListFull => 7 | .conflict => 8 | .cancelled => 9
    let state : Nat := match r.state with
      | .forming => 0 | .planned => 1 | .done => 2 | .spurious => 3 | .blocked => 4 | .untimed => 5 | .abandoned => 6
    let confirmation : Nat := match r.confirmation with
      | .none => 0 | .waiting => 1 | .matched => 2 | .missing => 3
    let residual : BitVec 16 := .ofInt 16 (r.residual.getD 0)
    let v := p.vEst.getD 0
    let bits := track + 2 * direction + flag p.reversed 4 + flag p.tag.isSome 8
    passageOpenedNotice t p =
      { kind := 0x40, body := pair p.number ++ [.ofNat 8 track, .ofNat 8 direction] ++ bigEndian p.openTime } ∧
    passageClosedNotice t p closed =
      { kind := 0x41
        body := pair p.number ++ [.ofNat 8 (16 * bits + v / 65536), .ofNat 8 (v / 256), .ofNat 8 v] ++ bigEndian p.openTime ++
          bigEndian closed ++ pair p.leading ++ pair p.trailing ++
          [.ofNat 8 (min p.accepted 255), .ofNat 8 (min p.rejected 255), .ofNat 8 (min p.heads 255)] ++ bigEndian (p.tag.getD 0) } ∧
    headPlannedNotice n st trigger f =
      { kind := 0x42, body := pair n ++ [station st] ++ bigEndian trigger ++ [.ofNat 8 (flash f)] } ∧
    stationResultNotice n x =
      { kind := 0x43
        body := pair n ++ [station x.station, .ofNat 8 (16 * camera x.camera + flash x.flash), (0 : BitVec 2) ++ x.fired] } ∧
    recordFinalNotice r =
      { kind := 0x44
        body := pair r.number ++ [.ofNat 8 (16 * state + confirmation), residual.extractLsb' 8 8, residual.extractLsb' 0 8] }

/-- A raised fault sets its sticky flag, is held if no fault is held, and is offered as a FAULT notice, kind, track (0xFF for none), item
and time, to every port whose class mask holds FAULT (R164, R169, R178). Nothing else changes. -/
def Obligations.RaisedFaultIsHeldAndReported : Prop :=
  ∀ (s : State) (f : RaisedFault),
    let code := match f.kind with
      | .wheelStuck => 0 | .axleMismatch => 1 | .headBlocked => 2 | .tableFull => 3 | .listFull => 4 | .farUnmatched => 5
      | .reversal => 6 | .storeInvalid => 7 | .storeWrite => 8
    let item : Nat := match f.item with
      | .none => 0
      | .input (.wheel .w1) => 0
      | .input (.wheel .w2) => 1
      | .input (.beam .ha) => 2
      | .input (.beam .hb) => 3
      | .record n => n
    let notice : Notice :=
      { kind := 0x45
        body := [.ofNat 8 code, (match f.track with | none => 0xFF | some .t0 => 0 | some .t1 => 1), .ofNat 8 (item / 256),
                 .ofNat 8 item] ++ bigEndian f.time }
    let u := s.raise f
    (∀ k, u.faults.flags.getLsbD k = (s.faults.flags.getLsbD k || decide (k = code))) ∧
    u.faults.held = some (s.faults.held.getD f) ∧
    (∀ p, u.ports.get p = if (s.ports.get p).classMask.getLsbD 4 then (s.ports.get p).offer notice else s.ports.get p) ∧
    u = (s.setFaults u.faults).setPorts u.ports

/-- DATA_WRITE (R152, R153): ignored IN_RESET; an overrun while the input holder is full, the byte lost; kept in the holder while a
complete frame is held; else appended to the frame. A frame is complete at a length byte of 0 or of 15 or more, or with its last body
byte; it is then executed, or held while a reply is in the reply slot. -/
def Obligations.DataWriteAssemblesFrames : Prop :=
  ∀ (s : State) (p : PortId) (b : Byte),
    let x := s.ports.get p
    let bytes := x.assembler ++ [b]
    let complete : Prop := ∃ k n body, bytes = k :: n :: body ∧ (n = 0 ∨ 15 ≤ n.toNat ∨ n.toNat ≤ body.length)
    let put (y : Port) : State := s.setPorts (s.ports.set p y)
    s.Running →
    (x.inReset = true → exec (.dataWrite p b) s = .next s) ∧
    (x.inReset = false → x.holder ≠ none → exec (.dataWrite p b) s = .next (put { x with overrun := true })) ∧
    (x.inReset = false → x.holder = none → x.holding = true → exec (.dataWrite p b) s = .next (put { x with holder := some b })) ∧
    (x.inReset = false → x.holder = none → x.holding = false →
      (¬ complete → exec (.dataWrite p b) s = .next (put { x with assembler := bytes })) ∧
      (complete → x.reply ≠ none → exec (.dataWrite p b) s = .next (put { x with assembler := bytes, holding := true })) ∧
      (complete → x.reply = none → exec (.dataWrite p b) s = .next ((put { x with assembler := bytes }).executeFrame p)))

/-- Executing a complete frame (R155): the request is judged and performed; then its reply, kind, result, length and body, fills the reply
slot, in output at once if no message is in progress; the assembler restarts with the byte that waited in the holder; the port is ATTENDED
and its deadline restarted (R159). Every other port is as the performance leaves it. A frame of an unknown kind is UNKNOWN, or MALFORMED
with a length byte of 15 or more; a known kind with a length it does not allow is MALFORMED, with the mode of the track named in the case
of SET_TRACK_MODE (R161, R162); which mode byte such a reply carries is the model's reading (notes/assumptions/15.md). -/
def Obligations.FrameIsJudgedAndAnswered : Prop :=
  ∀ (s : State) (p : PortId) (kind length : Byte) (body : List Byte),
    let x := s.ports.get p
    let a := (s.setPorts (s.ports.set p { x with executing := true })).judge p kind length body
    let y := a.state.ports.get p
    let reply : List Byte := kind :: resultCode a.result :: .ofNat 8 a.body.length :: a.body
    let attend := Memory.read a.state.image (4 + portCode p)
    let lengths (k : RequestKind) : List Nat := match k with
      | .nop | .readOutputs | .readFaults | .readTime => [0]
      | .bind | .unbind | .readTrack | .latestRecords => [1]
      | .subscribe | .setTrackMode | .readRecord | .releaseFault => [2]
      | .tagPassage => [5]
      | .relay => [2, 3, 4, 5, 6, 7, 8, 9, 10, 11, 12, 13]
      | .inject => [5, 9, 13]
    (x.assembler = kind :: length :: body →
      s.executeFrame p = a.state.setPorts (a.state.ports.set p
        { y with reply := some { bytes := reply, inOutput := y.inProgress.isNone }
                 inProgress := y.inProgress.or (some { bytes := reply, position := 0, isReply := true })
                 outReg := if y.inProgress.isNone then some kind else y.outReg
                 assembler := y.holder.toList, holder := none, holding := false, attendance := .attended, executing := false
                 attendAt := if attend = 0 then none
                   else some (a.state.clock.tb + BitVec.ofNat 32 (attend.toNat * 100000)) })) ∧
    (kind = 0 ∨ 15 < kind.toNat → 15 ≤ length.toNat → s.judge p kind length body = { result := .malformed, body := [], state := s }) ∧
    (kind = 0 ∨ 15 < kind.toNat → length.toNat < 15 → s.judge p kind length body = { result := .unknown, body := [], state := s }) ∧
    (∀ k, kindByte k = kind → k ≠ .setTrackMode → length.toNat ∉ lengths k →
      s.judge p kind length body = { result := .malformed, body := [], state := s }) ∧
    (∀ k, kindByte k = kind → length.toNat ∈ lengths k → s.judge p kind length body = s.perform p k body) ∧
    (kind = 0x05 → length.toNat ≠ 2 → s.judge p kind length body =
      { result := .malformed, state := s
        body := [match body with
          | 0 :: _ => .ofNat 8 (modeCode (s.mode .t0))
          | 1 :: _ => .ofNat 8 (modeCode (s.mode .t1))
          | _ => 0xFF] })

/-- A status write clears the assembler, the holder, holding and OVERRUN, and touches nothing else (R154); IN_RESET it does nothing (R151, R160),
nor before TB counts, which is the model's choice (notes/assumptions/5.md). The status byte a status read drives has its eight flags in bits 0
to 7 (R178). PIF and POA show the input holder and the output register (R150), and PATN a reply in the slot, a notice queued or a message in
progress of a port that is not IN_RESET (R157). -/
def Obligations.StatusWriteClearsTheInputSide : Prop :=
  ∀ (s : State) (p : PortId),
    let x := s.ports.get p
    (s.Running → x.inReset = false → exec (.statusWrite p) s =
      .next (s.setPorts (s.ports.set p { x with assembler := [], holder := none, holding := false, overrun := false }))) ∧
    (s.Running → x.inReset = true → exec (.statusWrite p) s = .next s) ∧
    (¬ s.Running → exec (.statusWrite p) s = .next s) ∧
    x.statusByte.getLsbD 0 = x.holder.isSome ∧ x.statusByte.getLsbD 1 = x.outReg.isSome ∧
    x.statusByte.getLsbD 2 = x.reply.isSome ∧ (x.statusByte.getLsbD 3 = true ↔ x.queue ≠ []) ∧
    (x.statusByte.getLsbD 4 = true ↔ x.attendance = .lapsed) ∧ x.statusByte.getLsbD 5 = x.overrun ∧
    (x.statusByte.getLsbD 6 = true ↔ x.dropped ≠ 0) ∧ x.statusByte.getLsbD 7 = x.holding ∧
    x.pif = x.holder.isSome ∧ x.poa = x.outReg.isSome ∧
    (x.patn = true ↔ x.inReset = false ∧ (x.reply ≠ none ∨ x.queue ≠ [] ∨ x.inProgress ≠ none))

/-- DATA_READ (R156): it drives the output register's byte, or 0x00 where there is none. The next byte of the message is loaded; at the
last byte the message ends, a reply's end empties the reply slot, and then a held frame is executed (R153), or the reply waiting, or else
the oldest notice, is loaded; with neither the register is empty. -/
def Obligations.DataReadDrainsTheMessage : Prop :=
  ∀ (s : State) (p : PortId),
    let x := s.ports.get p
    let put (y : Port) : State := s.setPorts (s.ports.set p y)
    s.Running →
    (x.inReset = true → exec (.dataRead p) s = .next s) ∧
    (x.inReset = false → x.outReg = none → exec (.dataRead p) s = .next (put { x with lastRead := 0 })) ∧
    (∀ m b, x.inReset = false → x.inProgress = some m → x.outReg = some b →
      let done := { x with lastRead := b, inProgress := none, outReg := none, reply := if m.isReply then none else x.reply }
      (m.position + 1 < m.bytes.length → exec (.dataRead p) s = .next (put
        { x with lastRead := b, inProgress := some { m with position := m.position + 1 }, outReg := m.bytes[m.position + 1]? })) ∧
      (m.bytes.length ≤ m.position + 1 → x.holding = true → done.reply = none →
        exec (.dataRead p) s = .next ((put done).executeFrame p)) ∧
      (m.bytes.length ≤ m.position + 1 → x.holding = false ∨ done.reply ≠ none →
        (∀ r, done.reply = some r → r.inOutput = false → exec (.dataRead p) s = .next (put
          { done with reply := some { r with inOutput := true }, outReg := r.bytes.head?
                      inProgress := some { bytes := r.bytes, position := 0, isReply := true } })) ∧
        (∀ n rest, done.reply = none → x.queue = n :: rest → exec (.dataRead p) s = .next (put
          { done with queue := rest, outReg := n.head?, inProgress := some { bytes := n, position := 0, isReply := false } })) ∧
        (done.reply = none → x.queue = [] → exec (.dataRead p) s = .next (put done))))

/-- ATTENDANCE_DEADLINE makes the port LAPSED (R159). PORT_RESET takes the port IN_RESET: its bindings are lost, every entry of its
stations leaves the trigger list without firing, with the STATION_RESULT notices going to this port, which drops them, and RECORD_FINAL by
routing (R130), and then its own state is as after reset (R160). That its dropped count is 0 afterwards, the drops of this very event cleared with
it, is the model's choice (notes/assumptions/24.md). PORT_RESET_RELEASE makes it RUNNING and ATTENDED with its deadline restarted; before TB
counts the restart is left to TB's start (notes/assumptions/5.md, the model's choice). -/
def Obligations.AttendanceLapsesAndPortsReset : Prop :=
  ∀ (s : State) (p : PortId),
    let x := s.ports.get p
    let put (y : Port) : State := s.setPorts (s.ports.set p y)
    let freed : PerStation (Option PortId) := .tabulate fun st => if s.bindings.get st = some p then none else s.bindings.get st
    let removed := ((put { x with inReset := true }).setBindings freed).removeEntries
      (fun e => decide (s.bindings.get e.station = some p)) (some p) true
    (s.Running → x.attendAt = some s.clock.tb →
      exec (.attendanceDeadline p) s = .next (put { x with attendance := .lapsed, attendAt := none })) ∧
    (s.Running → x.inReset = false → exec (.portReset p) s = .next (removed.setPorts (removed.ports.set p
      { inReset := true, holder := none, assembler := [], holding := false, overrun := false, reply := none, queue := [],
        dropped := 0, inProgress := none, outReg := none, trackMask := 0, classMask := 0, attendance := .attended,
        attendAt := none, executing := false, lastRead := x.lastRead }))) ∧
    (s.Running → x.inReset = true → exec (.portReset p) s = .next s) ∧
    (¬ s.Running → exec (.portReset p) s = .next (put { x with inReset := true })) ∧
    (s.Running → x.inReset = true → exec (.portResetRelease p) s =
      .next (put { x with inReset := false, attendance := .attended, attendAt := s.restarted p })) ∧
    (¬ s.Running → x.inReset = true → exec (.portResetRelease p) s =
      .next (put { x with inReset := false, attendance := .attended })) ∧
    (x.inReset = false → exec (.portResetRelease p) s = .next s)

/-! ### Requests -/

/-- A request command is its processor's writing of the request's frame, kind, length and body, one data write each (R152, R162, R178): the
model's reading of the table's request rows, RELAY and INJECT with bodies of any length included (notes/assumptions/7.md). -/
def Obligations.RequestIsTheWritingOfItsFrame : Prop :=
  ∀ (c : Instr) (s : State) (p : PortId) (bytes : List Byte), requestBytes c = some (p, bytes) →
    exec c s = execAll (bytes.map fun b => .dataWrite p b) s

/-- NOP, READ_TIME, READ_FAULTS, READ_OUTPUTS, READ_TRACK, LATEST_RECORDS and READ_RECORD on a ready port are answered with the body the
rules give, as the state is, and change nothing but the port's reply and attendance (R155, R162, R167, R170, R115, R86, R87). A track other
than 0 or 1 is a BAD_ARG, a number not in the table NOT_FOUND. -/
def Obligations.ReadingRequestsAnswerAndChangeNothing : Prop :=
  ∀ (s : State) (p : PortId), s.Running → (s.ports.get p).Ready →
    let answered (c : Instr) (reply : List Byte) : Prop := exec c s = .next (s.answers p reply)
    answered (.nop p) [0x01, 0, 0] ∧
    answered (.readTime p) ([0x0F, 0, 4] ++ bigEndian s.clock.tb) ∧
    answered (.readFaults p) ([0x0D, 0, 11] ++ faultsBody s.faults) ∧
    answered (.readOutputs p) ([0x09, 0, 70] ++ outputsBody s) ∧
    (∀ track : Byte, 1 < track.toNat → answered (.readTrack p track) [0x06, 3, 0] ∧ answered (.latestRecords p track) [0x08, 3, 0]) ∧
    (∀ t : Track, answered (.readTrack p (.ofNat 8 (trackCode t))) ([0x06, 0, 36] ++ trackBody s t) ∧
      answered (.latestRecords p (.ofNat 8 (trackCode t)))
        ([0x08, 0, .ofNat 8 (1 + 2 * s.table.records.countP fun r => r.track == t)] ++ latestBody s t)) ∧
    (∀ n : BitVec 16, (∀ r ∈ s.table.records, r.number ≠ n.toNat) → answered (.readRecord p n) [0x07, 8, 0]) ∧
    (∀ (n : BitVec 16) r, s.DistinctNumbers → r ∈ s.table.records → r.number = n.toNat → r.entries.length ≤ 8 →
      answered (.readRecord p n) ([0x07, 0, 89] ++ recordBody r))

/-- The layouts of the reading bodies (R178, R179). READ_TRACK: mode and state, then the 31 bytes of the open passage, which all read 0 while
the unit is IDLE, then the two head detector units, state and role a nibble each, and the injection queue's depth. READ_FAULTS: the flags, and
the held record with its presence. READ_OUTPUTS: five bytes for each station and then for each unit. LATEST_RECORDS: the count, then two bytes a
number, newest first. READ_RECORD: the head of 33 bytes, a slot of seven for each station entry in order, and 0 in the slots beyond. -/
def Obligations.ReadingBodiesHaveTheirLayout : Prop :=
  ∀ (s : State) (t : Track) (r : HeadRecord),
    let pair (n : Nat) : List Byte := [.ofNat 8 (n / 256), .ofNat 8 n]
    let triple (n : Nat) : List Byte := [.ofNat 8 (n / 65536), .ofNat 8 (n / 256), .ofNat 8 n]
    let flag (b : Bool) (weight : Nat) : Nat := if b then weight else 0
    let mode : Byte := match s.mode t with
      | .out => 0 | .live => 1 | .test => 2
    let unit : Byte := match s.passages.get t with
      | none => 0
      | some p => if p.reversed then 2 else 1
    let direction (d : Direction) : Nat := match d with
      | .a => 0 | .b => 1
    let passage : List Byte := match s.passages.get t with
      | none => List.replicate 31 0
      | some p => pair p.number ++ [.ofNat 8 (direction p.direction + flag p.vEst.isSome 2 + flag p.tag.isSome 4)] ++ bigEndian p.openTime ++
          pair p.leading ++ pair p.trailing ++ pair p.accepted ++ pair p.rejected ++ triple (p.vEst.getD 0) ++
          [.ofNat 8 p.discord, .ofNat 8 p.orphan] ++ pair p.heads ++ bigEndian p.lastEdge ++ bigEndian (p.tag.getD 0) ++
          [.ofNat 8 p.queue.length]
    let beam (u : HeadUnit) : Byte := .ofNat 8 (16 * (match u.role with
      | .none => 0 | .near => 1 | .far => 2) + match u.state with
      | .clear => 0 | .covered _ => 1 | .gap _ _ _ => 2 | .blocked => 3)
    let held : List Byte := match s.faults.held with
      | none => List.replicate 9 0
      | some f => ([1, (match f.kind with
          | .wheelStuck => 0 | .axleMismatch => 1 | .headBlocked => 2 | .tableFull => 3 | .listFull => 4 | .farUnmatched => 5
          | .reversal => 6 | .storeInvalid => 7 | .storeWrite => 8), (match f.track with
          | none => 0xFF | some .t0 => 0 | some .t1 => 1)] : List Byte) ++ pair (match f.item with
          | .none => 0 | .input (.wheel .w1) => 0 | .input (.wheel .w2) => 1 | .input (.beam .ha) => 2 | .input (.beam .hb) => 3
          | .record n => n) ++ bigEndian f.time
    let station (st : Station) : List Byte :=
      .ofNat 8 ((match s.bindings.get st with | none => 0 | some p => 64 + portCode p) + flag (s.stations.get st).lastFire.isSome 128)
        :: bigEndian ((s.stations.get st).lastFire.getD 0)
    let flashUnit (f : FlashId) : List Byte :=
      .ofNat 8 ((match (s.units.get f).state with | .ready => 0 | .charging => 1 | .inhibited => 2)
          + 16 * (s.units.get f).bookings.length + flag (s.units.get f).lastFire.isSome 128)
        :: bigEndian ((s.units.get f).lastFire.getD 0)
    let mine := (s.table.records.filter fun r => r.track == t).reverse
    let state : Nat := match r.state with
      | .forming => 0 | .planned => 1 | .done => 2 | .spurious => 3 | .blocked => 4 | .untimed => 5 | .abandoned => 6
    let confirmation : Nat := match r.confirmation with
      | .none => 0 | .waiting => 1 | .matched => 2 | .missing => 3
    let residual : BitVec 16 := .ofInt 16 (r.residual.getD 0)
    let head : List Byte := pair r.number ++
      [.ofNat 8 ((match r.track with | .t0 => 0 | .t1 => 1) + 2 * direction r.direction + flag r.test 4 + 16 * r.entries.length)] ++
      pair r.passage ++ [.ofNat 8 (16 * state + confirmation), .ofNat 8 (r.strips + flag r.tTrail.isSome 16 + flag r.expectedFar.isSome 32 +
        flag r.residual.isSome 64 + flag r.tag.isSome 128)] ++
      bigEndian r.tLead ++ bigEndian (r.tTrail.getD 0) ++ triple r.width ++ pair r.length ++ triple r.speed ++
      bigEndian (r.expectedFar.getD 0) ++ [residual.extractLsb' 8 8, residual.extractLsb' 0 8] ++ bigEndian (r.tag.getD 0)
    let slot (x : StationEntry) : List Byte :=
      [.ofNat 8 (stationCode x.station + flag x.trigger.isSome 128), .ofNat 8 (16 * cameraCode x.camera + flashCode x.flash)] ++
        bigEndian (x.trigger.getD 0) ++ [(0 : BitVec 2) ++ x.fired]
    trackBody s t = [mode, unit] ++ passage ++
      [beam (s.heads.get t).ha, beam (s.heads.get t).hb, .ofNat 8 (s.tracks.get t).injections.length] ∧
    (trackBody s t).length = 36 ∧
    faultsBody s.faults = pair s.faults.flags.toNat ++ held ∧ (faultsBody s.faults).length = 11 ∧
    outputsBody s = Station.all.flatMap station ++ FlashId.all.flatMap flashUnit ∧ (outputsBody s).length = 70 ∧
    latestBody s t = .ofNat 8 mine.length :: mine.flatMap (fun x => pair x.number) ∧
    head.length = 33 ∧
    (r.entries.length ≤ 8 → recordBody r = head ++ r.entries.flatMap slot ++ List.replicate (7 * (8 - r.entries.length)) 0 ∧
      (recordBody r).length = 89)

/-- SUBSCRIBE replaces both masks, or is a BAD_ARG with a bit beyond them (R163). BIND takes a station no port holds, confirms one's own and
is HELD by another's, the reply naming the holder; a station above 7 is a BAD_ARG (R165). RELEASE_FAULT clears the flags named and empties
the held record, or is a BAD_ARG with a bit beyond the nine kinds (R170). TAG_PASSAGE tags the open passage and its records once; else it is
NO_PASSAGE or TAGGED (R39, R85). Each on a ready port, and nothing else changes. -/
def Obligations.RegistersOfRequestsAreUpdated : Prop :=
  ∀ (s : State) (p : PortId), s.Running → (s.ports.get p).Ready →
    let answered (c : Instr) (t : State) (reply : List Byte) : Prop := exec c s = .next (t.answers p reply)
    (∀ tracks classes : Byte,
      (tracks.toNat < 4 → classes.toNat < 32 → answered (.subscribe p tracks classes)
        (s.setPorts (s.ports.modify p fun x => { x with trackMask := tracks.setWidth 2, classMask := classes.setWidth 5 }))
        [0x02, 0, 2, tracks, classes]) ∧
      (4 ≤ tracks.toNat ∨ 32 ≤ classes.toNat → answered (.subscribe p tracks classes) s [0x02, 3, 0])) ∧
    (∀ station : Byte, 8 ≤ station.toNat → answered (.bind p station) s [0x03, 3, 0]) ∧
    (∀ st : Station, let b : Byte := .ofNat 8 (stationCode st)
      (s.bindings.get st = none →
        answered (.bind p b) (s.setBindings (s.bindings.set st (some p))) [0x03, 0, 2, b, .ofNat 8 (portCode p)]) ∧
      (s.bindings.get st = some p → answered (.bind p b) s [0x03, 0, 2, b, .ofNat 8 (portCode p)]) ∧
      (∀ q, q ≠ p → s.bindings.get st = some q → answered (.bind p b) s [0x03, 4, 2, b, .ofNat 8 (portCode q)])) ∧
    (∀ mask : BitVec 16,
      (mask.toNat < 512 → let flags := s.faults.flags &&& ~~~(mask.setWidth 9)
        answered (.releaseFault p mask) (s.setFaults { flags := flags, held := none })
          [0x0E, 0, 2, .ofNat 8 (flags.toNat / 256), .ofNat 8 flags.toNat]) ∧
      (512 ≤ mask.toNat → answered (.releaseFault p mask) s [0x0E, 3, 0])) ∧
    (∀ (track : Byte) (tag : BitVec 32), 1 < track.toNat → answered (.tagPassage p track tag) s [0x0A, 3, 0]) ∧
    (∀ (t : Track) (tag : BitVec 32), let c : Instr := .tagPassage p (.ofNat 8 (trackCode t)) tag
      (s.passages.get t = none → answered c s [0x0A, 12, 0]) ∧
      (∀ o, s.passages.get t = some o → o.tag ≠ none → answered c s [0x0A, 11, 0]) ∧
      (∀ o, s.passages.get t = some o → o.tag = none → answered c
        ((s.setPassages (s.passages.set t (some { o with tag := some tag }))).mapRecords fun r =>
          if r.track = t ∧ r.ofOpenPassage = true then { r with tag := some tag } else r) [0x0A, 0, 0]))

/-- UNBIND (R166): a station above 7 is a BAD_ARG, one the port does not hold NOT_BOUND. Else the binding is lost and every entry of the
station is removed without firing, the STATION_RESULT notices going to this port, where they wait behind the reply (R130, R155); the reply gives
the station and the number of entries removed. -/
def Obligations.UnbindFreesTheStation : Prop :=
  ∀ (s : State) (p : PortId), s.Running → (s.ports.get p).Ready →
    (∀ station : Byte, 8 ≤ station.toNat → exec (.unbind p station) s = .next (s.answers p [0x04, 3, 0])) ∧
    (∀ st : Station, let b : Byte := .ofNat 8 (stationCode st)
      (s.bindings.get st ≠ some p → exec (.unbind p b) s = .next (s.answers p [0x04, 5, 0])) ∧
      (s.bindings.get st = some p → exec (.unbind p b) s = .next
        ((((s.performing p [0x04, 1, b]).setBindings (s.bindings.set st none)).removeEntries (fun e => e.station == st) (some p) true).performed p
          [0x04, 0, 2, b, .ofNat 8 (s.triggers.countP fun e => e.station == st)])))

/-- SET_TRACK_MODE (R137): a track or mode out of range is a BAD_ARG; the mode held is ACCEPTED as it is; an open passage makes the
change BUSY; a failed check of validation makes it CONFIG_INVALID with check and item. The reply carries the mode held, 0xFF for no such
track. Accepted, the change is made whole within the execution (R138, ModeChangesTakeTheirSteps), and the reply carries the mode asked for;
what the change offers to the port itself waits behind the reply (R155). -/
def Obligations.SetTrackModeJudgesAndChanges : Prop :=
  ∀ (s : State) (p : PortId) (t : Track) (m : Mode), s.Running → (s.ports.get p).Ready →
    let code (m : Mode) : Byte := match m with
      | .out => 0
      | .live => 1
      | .test => 2
    let track : Byte := .ofNat 8 (trackCode t)
    let held := code (s.mode t)
    let c : Instr := .setTrackMode p track (code m)
    (∀ a b : Byte, 1 < a.toNat → exec (.setTrackMode p a b) s = .next (s.answers p [0x05, 3, 1, 0xFF])) ∧
    (∀ b : Byte, 2 < b.toNat → exec (.setTrackMode p track b) s = .next (s.answers p [0x05, 3, 1, held])) ∧
    (m = s.mode t → exec c s = .next (s.answers p [0x05, 0, 1, held])) ∧
    (m ≠ s.mode t → s.mode t ≠ .out → s.passages.get t ≠ none → exec c s = .next (s.answers p [0x05, 6, 1, held])) ∧
    (∀ x, m ≠ s.mode t → s.mode t = .out → s.validate t = some x →
      exec c s = .next (s.answers p [0x05, 7, 3, held, .ofNat 8 x.code, x.item])) ∧
    (m ≠ s.mode t → (s.mode t ≠ .out → s.passages.get t = none) → (s.mode t = .out → s.validate t = none) →
      exec c s = .next (((s.performing p [0x05, 2, track, code m]).changeMode t m).performed p [0x05, 0, 1, code m]))

/-- An accepted change of mode takes its steps in the order of R138. From OUT the snapshots of the image are adopted (R139, R140) and the mode
changes; toward TEST each conditioner then ends its pin stream, an ACTIVE one with an inactive edge stamped now (R17). Out of TEST the injection
queue is emptied, each injected stream in ACTIVE ends with an inactive edge, the injection states become INACTIVE without a stuck deadline, and a
pin in ACTIVE hands on an active edge, to the beams' units before the wheels' where the track goes LIVE. In OUT reached, the entries of the track's
records have left the trigger list without firing (R131), the snapshots are discarded, and an input whose active level in use has changed takes the
new one (R14). Steps of several inputs that the manual leaves unordered come in some order (notes/assumptions/13.md). -/
def Obligations.ModeChangesTakeTheirSteps : Prop :=
  ∀ (s : State) (t : Track) (m : Mode),
    let now := s.clock.tb
    let pin (w : State) (i : Input) : PinState := ((w.inputs.get t).get i).pin
    let endsPin (i : Input) (w : State) : State := if pin w i = .active then w.handEdge t i false now else w
    let startsPin (i : Input) (w : State) : State := if pin w i = .active then w.handEdge t i true now else w
    let endsInjected (i : Input) (w : State) : State :=
      let c := (w.inputs.get t).get i
      (if c.injection = .active then w.handEdge t i false now else w).setConditioner t i
        { c with injection := .inactive, injectionStuckAt := none }
    let settles (i : Input) (w : State) : State :=
      if (w.config t).activeHigh.get i = (s.config t).activeHigh.get i then w else w.takesNewLevel t i
    let control (w : State) (x : TrackControl) : State := w.setTracks (w.tracks.set t x)
    let adopted := (control s { s.tracks.get t with mode := m, snapshot := some (takeSnapshot s.image t) }).setUnitSnapshot
      (some (if s.mode t.other = .out then takeUnits s.image else s.unitSnapshot.getD (takeUnits s.image)))
    let removed (w : State) : State := control
      (w.removeEntries (fun e => ((w.oldest fun r => r.number == e.record).map (·.track)) == some t) none true)
      { w.tracks.get t with mode := .out, snapshot := none }
    let freed (w : State) : State := if s.mode t.other = .out then w.setUnitSnapshot none else w
    let u := s.changeMode t m
    (s.mode t = .out → m = .live → u = adopted) ∧
    (s.mode t = .out → m = .test → adopted.InSomeOrder (Input.all.map endsPin) u) ∧
    (s.mode t = .live → m = .test → (control s { s.tracks.get t with mode := .test }).InSomeOrder (Input.all.map endsPin) u) ∧
    (s.mode t = .test → m = .live → ∃ v w,
      (control s { s.tracks.get t with mode := .live, injections := [] }).InSomeOrder (Input.all.map endsInjected) v ∧
      v.InSomeOrder (Beam.all.map fun b => startsPin (.beam b)) w ∧ w.InSomeOrder (Wheel.all.map fun b => startsPin (.wheel b)) u) ∧
    (s.mode t = .live → m = .out → ∃ v, (removed s).InSomeOrder (Input.all.map settles) v ∧ u = freed v) ∧
    (s.mode t = .test → m = .out → ∃ v w,
      (control s { s.tracks.get t with injections := [] }).InSomeOrder (Input.all.map endsInjected) v ∧
      (removed v).InSomeOrder (Input.all.map startsPin ++ Input.all.map settles) w ∧ u = freed w) ∧
    (m ≠ s.mode t → u.mode t = m) ∧ (∀ k, k ≠ t → u.tracks.get k = s.tracks.get k ∧ u.inputs.get k = s.inputs.get k) ∧ OnlyModes s u ∧
    (s.mode t = .test → m ≠ .test → ∀ i, ((u.inputs.get t).get i).injection = .inactive ∧ ((u.inputs.get t).get i).injectionStuckAt = none)

/-- A snapshot passes validation exactly if every check of R141 holds of the values in the working image: the format, the ranges of the
track's settings, the wheel spacing, the order of the beams, and for each enabled station its place, ranges, pulse, policy, flash set and
its being enabled on one track only, and for each enabled flash unit taken with it the recharge time. The checks come in that order: a
wrong format is reported first, and a value out of its range next. -/
def Obligations.ValidationMakesEveryCheck : Prop :=
  ∀ (s : State) (t : Track),
    let snap := takeSnapshot s.image t
    let c := snap.config
    let units := if s.mode t.other = .out then takeUnits s.image else s.unitSnapshot.getD (takeUnits s.image)
    let ranges : Prop :=
      (∀ i, c.nFilt.get i ≤ 1023) ∧ (50 ≤ c.tStuck ∧ c.tStuck ≤ 5000) ∧ c.m ≤ 1000 ∧ (50 ≤ c.lMin ∧ c.lMin ≤ c.lMax ∧ c.lMax ≤ 3000) ∧
      (1000 ≤ c.wMax ∧ c.wMax ≤ 2000000) ∧ (50 ≤ c.tQuiet ∧ c.tQuiet ≤ 6000) ∧ (100 ≤ c.cTol ∧ c.cTol ≤ 100000) ∧
      (50 ≤ snap.tSetup ∧ snap.tSetup ≤ 5000)
    let stationHolds (st : Station) (x : StationConfig) : Prop :=
      (c.xHA < x.x ∧ x.x < c.xHB) ∧ x.delta ≤ 20000 ∧ (10 ≤ x.pulse ∧ x.pulse ≤ 5000) ∧ (1000 ≤ x.spacing ∧ x.spacing ≤ 1000000) ∧
      x.pulse ≤ x.spacing ∧ x.policy ≠ .other ∧
      (x.policy = .required ∨ x.policy = .preferred →
        x.flashSet ≠ 0 ∧ ∀ f, x.flashSet.getLsbD (unitCode f) = true → (units.get f).enabled = true) ∧
      (s.mode t.other ≠ .out → ∀ o y, (s.tracks.get t.other).snapshot = some o → o.stations.get st = some y → y.enabled = false)
    (s.validate t = none ↔
      Memory.read s.image 0 = 1 ∧ ranges ∧ (c.xW1 + 200 ≤ c.xW2 ∧ c.xW2 ≤ c.xW1 + 4000) ∧ c.xHA < c.xHB ∧
      (∀ st x, snap.stations.get st = some x → x.enabled = true → stationHolds st x) ∧
      (s.mode t.other = .out → ∀ f, (units.get f).enabled = true → 5000 ≤ (units.get f).recharge ∧ (units.get f).recharge ≤ 2000000)) ∧
    (Memory.read s.image 0 ≠ 1 → s.validate t = some { code := 1, item := 0xFF, holds := false }) ∧
    (Memory.read s.image 0 = 1 → ¬ ranges → s.validate t = some { code := 2, item := 0xFF, holds := false })

/-- RELAY (R168) of 1 to 12 bytes: a target above 3 is a BAD_ARG, a target IN_RESET or LAPSED UNREACHABLE, one with 32 notices queued FULL;
else the target is offered a RELAY notice, source port and bytes, and the reply is empty. A relay to the port itself waits behind the
reply. -/
def Obligations.RelayOffersItsBytesToTheTarget : Prop :=
  ∀ (s : State) (p : PortId) (bytes : List Byte), s.Running → (s.ports.get p).Ready → 1 ≤ bytes.length → bytes.length ≤ 12 →
    (∀ target : Byte, 3 < target.toNat → exec (.relay p target bytes) s = .next (s.answers p [0x0B, 3, 0])) ∧
    (∀ q : PortId,
      let x := s.ports.get q
      let c : Instr := .relay p (.ofNat 8 (portCode q)) bytes
      let notice : Notice := { kind := 0x46, body := .ofNat 8 (portCode p) :: bytes }
      (x.inReset = true ∨ x.attendance = .lapsed → exec c s = .next (s.answers p [0x0B, 13, 0])) ∧
      (x.inReset = false → x.attendance = .attended → 32 ≤ x.queue.length → exec c s = .next (s.answers p [0x0B, 10, 0])) ∧
      (x.inReset = false → x.attendance = .attended → x.queue.length < 32 →
        (q ≠ p → exec c s = .next ((s.setPorts (s.ports.set q (x.offer notice))).answers p [0x0B, 0, 0])) ∧
        (q = p → exec c s = .next ((s.setPorts (s.ports.set q { x with
          queue := x.queue ++ [[0x46, .ofNat 8 x.dropped, .ofNat 8 (bytes.length + 1), .ofNat 8 (portCode p)] ++ bytes]
          dropped := 0 })).answers p [0x0B, 0, 0]))))

/-- INJECT (R146) of 1 to 3 edges: a track above 1, an edge byte with a bit beyond input and level, an offset of 0 and offsets that fall are
BAD_ARG; a track not in TEST is NOT_IN_TEST; more than 16 edges FULL. Else each edge is queued with its offset from now, in order of time
from now and behind edges of the same time (R145), and the reply gives now and the queue's depth. -/
def Obligations.InjectQueuesTimedEdges : Prop :=
  ∀ (s : State) (p : PortId) (edges : List EdgeArg), s.Running → (s.ports.get p).Ready → 1 ≤ edges.length → edges.length ≤ 3 →
    let now := s.clock.tb
    let input (e : EdgeArg) : Input := match e.edge.getLsbD 1, e.edge.getLsbD 0 with
      | false, false => .wheel .w1
      | false, true => .wheel .w2
      | true, false => .beam .ha
      | true, true => .beam .hb
    let made (e : EdgeArg) : InjectedEdge :=
      { input := input e, active := e.edge.getLsbD 7, time := now + e.offset.setWidth 32 }
    let place (l : List InjectedEdge) (e : InjectedEdge) : List InjectedEdge :=
      l.takeWhile (fun x => decide ((x.time - now).toNat ≤ (e.time - now).toNat)) ++
        e :: l.dropWhile (fun x => decide ((x.time - now).toNat ≤ (e.time - now).toNat))
    let valid : Prop := (∀ e ∈ edges, (∀ k, 2 ≤ k → k ≤ 6 → e.edge.getLsbD k = false) ∧ e.offset ≠ 0) ∧
      edges.Pairwise fun a b => a.offset.toNat ≤ b.offset.toNat
    (∀ track : Byte, 1 < track.toNat → exec (.inject p track edges) s = .next (s.answers p [0x0C, 3, 0])) ∧
    (∀ t : Track,
      let c : Instr := .inject p (.ofNat 8 (trackCode t)) edges
      let q := (s.tracks.get t).injections
      (¬ valid → exec c s = .next (s.answers p [0x0C, 3, 0])) ∧
      (valid → s.mode t ≠ .test → exec c s = .next (s.answers p [0x0C, 9, 0])) ∧
      (valid → s.mode t = .test → 16 < q.length + edges.length → exec c s = .next (s.answers p [0x0C, 10, 0])) ∧
      (valid → s.mode t = .test → q.length + edges.length ≤ 16 → exec c s = .next
        ((s.setTracks (s.tracks.set t { s.tracks.get t with injections := (edges.map made).foldl place q })).answers p
          ([0x0C, 0, 5] ++ bigEndian now ++ [.ofNat 8 (q.length + edges.length)]))))

/-! ### The maintenance line -/

/-- A byte received on the maintenance line is echoed (R173). While a commit is in flight it is then discarded (R176); while the code is
awaited it is collected, and the sixth decides OPEN or SHUT by the code in the image and is followed by a break (R175); a byte that begins no
command is ignored (R174). A break and a framing error discard what was collected; a break is answered with a break (R173). The model's
choices: each command of the line is its bytes received at once, and the three rows of a single byte receive it as the line's state has it
(notes/assumptions/8.md); without TB counting nothing is received (notes/assumptions/5.md). -/
def Obligations.LineBytesAreEchoedAndCollected : Prop :=
  ∀ (s : State) (b hi lo : Byte),
    let m := s.maint
    let received (bytes : List Byte) : Host.Outcome State Fault Refusal := execAll (bytes.map .codeByte) s
    let code := m.code ++ [b]
    let echoed (x : Maintenance) (more : List LineItem) : State := s.setMaint { x with sent := m.sent ++ [.byte b] ++ more }
    exec (.maintRead hi lo) s = received [0x4C, hi, lo] ∧ exec (.maintWrite hi lo b) s = received [0x53, hi, lo, b] ∧
    exec .maintReadNext s = received [0x6C] ∧ exec (.maintWriteNext b) s = received [0x73, b] ∧
    exec .commit s = received [0x43] ∧ exec .checksum s = received [0x4B] ∧
    (¬ s.Running → exec .lineBreak s = .next s ∧ exec .framingError s = .next s) ∧
    (∀ c : Instr, c = .codeByte b ∨ c = .unknownCommandByte b ∨ c = .byteReceivedInFlight b →
      exec c s = received [b] ∧ (¬ s.Running → exec c s = .next s) ∧
      (s.Running → m.commit ≠ none → exec c s = .next (echoed m [])) ∧
      (s.Running → m.commit = none → m.access = .waitingCode → code.length < 6 →
        exec c s = .next (echoed { m with code := code } [])) ∧
      (s.Running → m.commit = none → m.access = .waitingCode → 6 ≤ code.length →
        let matching : Bool := decide (code = (List.range 6).map fun k => Memory.read s.image (0x1F0 + k))
        exec c s = .next (echoed { m with code := [], access := if matching then .open else .shut } [.lineBreak])) ∧
      (s.Running → m.commit = none → m.access ≠ .waitingCode → m.parser = .idle →
        b ∉ [0x4C, 0x53, 0x6C, 0x73, 0x43, 0x4B] → exec c s = .next (echoed m []))) ∧
    (s.Running → exec .lineBreak s =
      .next (s.setMaint { m with parser := .idle, code := [], sent := m.sent ++ [.lineBreak] })) ∧
    (s.Running → exec .framingError s = .next (s.setMaint { m with parser := .idle, code := [] }))

/-- Reads of the line (R174). 'L' reads the address (addr_hi × 256 + addr_lo) modulo 1 024, 'l' the one after the last address; it becomes the last
address. The image is read but for the access code, which reads 0; a byte that holds no field of R179 is read as it stands too, R178's unused bits
being those that the part's own blocks read (notes/assumptions/25.md, the model's reading); a read of 0x200 latches TB, which 0x200 to 0x203 give,
the window goes on with the tracks' modes and passage states and the fault flags (R179), and beyond it every byte reads 0. 'K' gives the checksum of
the image and whether it matches. In SHUT every byte sent is 0 (R175); that the last address still moves there, and that TB is not latched, is the
model's reading (notes/assumptions/16.md). -/
def Obligations.LineReadsImageAndWindow : Prop :=
  ∀ (s : State) (hi lo : Byte),
    let m := s.maint
    let mode (t : Track) : Byte := match s.mode t with
      | .out => 0
      | .live => 1
      | .test => 2
    let unit (t : Track) : Byte := match s.passages.get t with
      | none => 0
      | some p => if p.reversed then 2 else 1
    let latch (addr : BitVec 10) : Time := if addr = 512 then s.clock.tb else m.latch
    let value (addr : BitVec 10) : Byte :=
      if addr.toNat < 512 then (if 0x1F0 ≤ addr.toNat ∧ addr.toNat ≤ 0x1F5 then 0 else Memory.read s.image addr.toNat)
      else (bigEndian (latch addr) ++ [mode .t0, mode .t1, unit .t0, unit .t1, .ofNat 8 (s.faults.flags.toNat / 256),
        .ofNat 8 s.faults.flags.toNat]).getD (addr.toNat - 512) 0
    let sum := ((List.range 0x1FE).map fun a => (Memory.read s.image a).toNat).sum % 65536
    let ok : Bool := decide (sum = 256 * (Memory.read s.image 0x1FE).toNat + (Memory.read s.image 0x1FF).toNat)
    let sends (x : Maintenance) (bytes : List Byte) : State := s.setMaint { x with sent := m.sent ++ bytes.map .byte }
    let reads (c : Instr) (addr : BitVec 10) (echo : List Byte) : Prop :=
      (m.access = .open → exec c s = .next (sends { m with lastAddress := addr, latch := latch addr } (echo ++ [value addr]))) ∧
      (m.access = .shut → exec c s = .next (sends { m with lastAddress := addr } (echo ++ [0])))
    s.Running → m.commit = none → m.parser = .idle →
    reads (.maintRead hi lo) (.ofNat 10 (256 * hi.toNat + lo.toNat)) [0x4C, hi, lo] ∧
    reads .maintReadNext (m.lastAddress + 1) [0x6C] ∧
    (m.access = .open → exec .checksum s =
      .next (sends m [0x4B, .ofNat 8 (sum / 256), .ofNat 8 sum, if ok then 1 else 0])) ∧
    (m.access = .shut → exec .checksum s = .next (sends m [0x4B, 0, 0, 0]))

/-- Writes of the line (R174). 'S' writes its data byte to its address, 's' to the one after the last address; it becomes the last address. The byte
is written whole, also where it holds no field of R179; what is written to such bits is ignored by every block that reads the image: two writes that
differ in them alone leave the same settings (R178; that it does not bear on the line's own reads and writes is the model's reading,
notes/assumptions/25.md). A write beyond the image and one in SHUT (R175) change nothing but the last address, which in SHUT is the model's reading
(notes/assumptions/16.md). A write that leaves the active levels of tracks that are OUT as they were changes that byte of the image alone. A write
that changes the active level of an input of a track that is OUT has its conditioner take the new level (R14); that uses up the sample of the
present TB value (notes/assumptions/4.md, the model's choice). -/
def Obligations.LineWritesTheImage : Prop :=
  ∀ (s : State) (hi lo data : Byte),
    let m := s.maint
    let writes (c : Instr) (addr : BitVec 10) (echo : List Byte) : Prop :=
      let kept := s.setMaint { m with lastAddress := addr, sent := m.sent ++ echo.map .byte }
      let written := kept.setImage (Memory.write s.image addr.toNat data)
      (m.access = .shut ∨ 512 ≤ addr.toNat → exec c s = .next kept) ∧
      (m.access = .open → addr.toNat < 512 →
        (∀ t i, s.mode t = .out → addr.toNat = trackBase t + 8 + inputCode i → (Memory.read s.image addr.toNat = 0 ↔ data = 0)) →
        exec c s = .next written) ∧
      (∀ t i, m.access = .open → s.mode t = .out → addr.toNat = trackBase t + 8 + inputCode i →
        ¬ (Memory.read s.image addr.toNat = 0 ↔ data = 0) → exec c s = .next (written.takesNewLevel t i)) ∧
      (∀ other : Byte, addr.toNat < 512 → data &&& fieldBits addr.toNat = other &&& fieldBits addr.toNat →
        SameSettings written.image (Memory.write s.image addr.toNat other))
    s.Running → m.commit = none → m.parser = .idle → m.access ≠ .waitingCode → MemoryInv s →
    writes (.maintWrite hi lo data) (.ofNat 10 (256 * hi.toNat + lo.toNat)) [0x53, hi, lo, data] ∧
    writes (.maintWriteNext data) (m.lastAddress + 1) [0x73, data]

/-- The commit (R176). 'C' in OPEN writes the checksum into the image and begins the write of page 0, in SHUT it sends 0x01 (R175). A page
write takes 5 000 µs and writes the 16 bytes read from the image at its start; at its end the next page begins. At the end of page 31 the
store is compared with the image: equal, 0x00 is sent, else STORE_WRITE is raised and 0x02 sent. A store cell may fail to take its byte
(notes/assumptions/14.md, a free value): stated of those that do not. That page 0 begins at the TB value of the 'C', so that it ends 5 000 µs
after it and the echo does not delay it, is the model's choice too (notes/assumptions/14.md). -/
def Obligations.CommitWritesTheStorePageByPage : Prop :=
  ∀ (s : State),
    let m := s.maint
    let sum := ((List.range 0x1FE).map fun a => (Memory.read s.image a).toNat).sum % 65536
    let page (image : Memory) (k : Nat) : List Byte := (List.range 16).map fun j => Memory.read image (16 * k + j)
    s.Running → MemoryInv s →
    (m.commit = none → m.parser = .idle → m.access = .open → ∃ u, exec .commit s = .next u ∧
      Memory.read u.image 0x1FE = .ofNat 8 (sum / 256) ∧ Memory.read u.image 0x1FF = .ofNat 8 sum ∧
      (∀ a, a ≠ 0x1FE → a ≠ 0x1FF → Memory.read u.image a = Memory.read s.image a) ∧
      u = (s.setImage u.image).setMaint { m with sent := m.sent ++ [.byte 0x43]
                                                 commit := some { page := 0, pageEndAt := s.clock.tb + 5000, bytes := page u.image 0 } }) ∧
    (m.commit = none → m.parser = .idle → m.access = .shut → exec .commit s =
      .next (s.setMaint { m with sent := m.sent ++ [.byte 0x43, .byte 0x01] })) ∧
    (∀ w, m.commit = some w → w.pageEndAt = s.clock.tb →
      let stored (u : State) : Prop :=
        (∀ a, a < 16 * w.page ∨ 16 * w.page + 16 ≤ a → Memory.read u.store a = Memory.read s.store a) ∧
        (∀ k b, w.bytes[k]? = some b → Config.cellFails s.choices (16 * w.page + k) = false →
          Memory.read u.store (16 * w.page + k) = b)
      (w.page < 31 → ∃ u, exec .commitPage s = .next u ∧ stored u ∧
        u = ((s.setStore u.store).setChoices u.choices).setMaint { m with
          commit := some { page := w.page + 1, pageEndAt := s.clock.tb + 5000, bytes := page s.image (w.page + 1) } }) ∧
      (w.page = 31 → ∃ u, exec .commitEnd s = .next u ∧ stored u ∧
        let ended (sent : Byte) : Maintenance := { m with commit := none, parser := .idle, sent := m.sent ++ [.byte sent] }
        let equal : Prop := ∀ a, a < 512 → Memory.read u.store a = Memory.read s.image a
        let failed := s.raise { kind := .storeWrite, track := none, item := .none, time := s.clock.tb }
        (equal → u = ((s.setStore u.store).setChoices u.choices).setMaint (ended 0)) ∧
        (¬ equal → u = ((((s.setStore u.store).setChoices u.choices).setMaint (ended 2)).setFaults failed.faults).setPorts
          failed.ports)))

/-! ### What every step keeps -/

/-- The state after reset meets every invariant. -/
def Obligations.ResetMeetsEveryInvariant : Prop :=
  ClockInv State.reset ∧ MemoryInv State.reset ∧ TracksInv State.reset ∧ PassagesInv State.reset ∧ TableInv State.reset ∧
    ListsInv State.reset ∧ InhibitInv State.reset ∧ PortsInv State.reset

/-- Every step keeps TB at 0 and every block as its reset left it until TB counts (R2), and the divider within its ratio (R1). That nothing is
under way before TB counts rests on the model's choice that requests and line bytes are lost then (notes/assumptions/5.md). -/
def Obligations.EveryStepKeepsTheTimeBase : Prop :=
  ∀ s u : State, ClockInv s → step s = .next u → ClockInv u

/-- Every step keeps the store and the image in their canonical form, addresses rising and no byte 0x00 listed, which is the model's choice of
how a memory is held (notes/assumptions/22.md), and a commit on one of the store's 32 pages of 16 bytes (R172, R176). -/
def Obligations.EveryStepKeepsStoreAndImage : Prop :=
  ∀ s u : State, MemoryInv s → step s = .next u → MemoryInv u

/-- Every step keeps the rules of track control (R20, R136, R140, R145) and the ranges of an open passage, its estimate within 500 to
100 000 mm/s among them (R21, R22, R34, R36, R38, R44). -/
def Obligations.EveryStepKeepsTracksAndPassages : Prop :=
  ∀ s u : State, TracksInv s → PassagesInv s → step s = .next u → TracksInv u ∧ PassagesInv u

/-- Every step keeps the record table at 16 records at most with no number twice, and only PLANNED records WAITING (R63, R71, R81, R82). -/
def Obligations.EveryStepKeepsTheRecordTable : Prop :=
  ∀ s u : State, TableInv s → step s = .next u → TableInv u

/-- Every step keeps the trigger list at 32 entries at most in the order of their fire times from now (R119), the injection queues at 16
in theirs (R145), one booking for each FLASH entry and at most 4 a unit (R105); and while FLINH is asserted no FLASH entry listed and
every unit INHIBITED (R107, R113). -/
def Obligations.EveryStepKeepsListsAndUnits : Prop :=
  ∀ s u : State, ListsInv s → InhibitInv s → step s = .next u → ListsInv u ∧ InhibitInv u

/-- Every step keeps every port sound: buffers in range, holding exactly with a complete frame, nothing left unsent at a message boundary
(R150, R152, R153, R156). That before TB counts every port is as after its reset rests on the model's choice that accesses are lost then
(notes/assumptions/5.md). -/
def Obligations.EveryStepKeepsThePorts : Prop :=
  ∀ s u : State, PortsInv s → step s = .next u → PortsInv u

end Statements
end

