-- ==== Sys2Proof/Laws/Bank.lean ====
section
/-! SUPPORT. The laws of banks: what reading a member gives after a member is replaced, and that a bank is its members. -/

namespace Sys2Proof.Machine

/-! ### PerTrack -/

@[simp] theorem PerTrack.get_set_self {α : Type} (b : PerTrack α) (i : Track) (x : α) : (b.set i x).get i = x := by
  cases i <;> rfl

@[simp] theorem PerTrack.get_set_ne {α : Type} (b : PerTrack α) {i j : Track} (x : α) (h : i ≠ j) : (b.set i x).get j = b.get j := by
  cases i <;> cases j <;> first | rfl | exact absurd rfl h

theorem PerTrack.get_set {α : Type} (b : PerTrack α) (i j : Track) (x : α) :
    (b.set i x).get j = if i = j then x else b.get j := by
  by_cases h : i = j
  · subst h; simp
  · simp [h]

@[simp] theorem PerTrack.get_tabulate {α : Type} (f : Track → α) (i : Track) : (PerTrack.tabulate f).get i = f i := by
  cases i <;> rfl

@[simp] theorem PerTrack.get_modify_self {α : Type} (b : PerTrack α) (i : Track) (f : α → α) : (b.modify i f).get i = f (b.get i) :=
  PerTrack.get_set_self b i _

@[simp] theorem PerTrack.get_modify_ne {α : Type} (b : PerTrack α) {i j : Track} (f : α → α) (h : i ≠ j) :
    (b.modify i f).get j = b.get j :=
  PerTrack.get_set_ne b _ h

theorem PerTrack.get_modify {α : Type} (b : PerTrack α) (i j : Track) (f : α → α) :
    (b.modify i f).get j = if i = j then f (b.get j) else b.get j := by
  by_cases h : i = j
  · subst h; simp
  · simp [h]

/-- Banks with equal members are equal. -/
theorem PerTrack.ext_get {α : Type} {b c : PerTrack α} (h : ∀ i, b.get i = c.get i) : b = c := by
  have e0 := h .t0
  have e1 := h .t1
  cases b; cases c
  simp only [PerTrack.get] at e0 e1
  simp [e0, e1]

@[simp] theorem PerTrack.set_set {α : Type} (b : PerTrack α) (i : Track) (x y : α) : (b.set i x).set i y = b.set i y := by
  cases i <;> rfl

@[simp] theorem PerTrack.set_get {α : Type} (b : PerTrack α) (i : Track) : b.set i (b.get i) = b := by
  cases i <;> rfl

/-! ### PerInput -/

@[simp] theorem PerInput.get_set_self {α : Type} (b : PerInput α) (i : Input) (x : α) : (b.set i x).get i = x := by
  cases i with | wheel w => cases w <;> rfl | beam b => cases b <;> rfl

@[simp] theorem PerInput.get_set_ne {α : Type} (b : PerInput α) {i j : Input} (x : α) (h : i ≠ j) : (b.set i x).get j = b.get j := by
  cases i with
  | wheel v =>
    cases v <;> cases j with
      | wheel w => cases w <;> first | rfl | exact absurd rfl h
      | beam b => cases b <;> rfl
  | beam v =>
    cases v <;> cases j with
      | wheel w => cases w <;> rfl
      | beam b => cases b <;> first | rfl | exact absurd rfl h

theorem PerInput.get_set {α : Type} (b : PerInput α) (i j : Input) (x : α) :
    (b.set i x).get j = if i = j then x else b.get j := by
  by_cases h : i = j
  · subst h; simp
  · simp [h]

@[simp] theorem PerInput.get_tabulate {α : Type} (f : Input → α) (i : Input) : (PerInput.tabulate f).get i = f i := by
  cases i with | wheel w => cases w <;> rfl | beam b => cases b <;> rfl

@[simp] theorem PerInput.get_modify_self {α : Type} (b : PerInput α) (i : Input) (f : α → α) : (b.modify i f).get i = f (b.get i) :=
  PerInput.get_set_self b i _

@[simp] theorem PerInput.get_modify_ne {α : Type} (b : PerInput α) {i j : Input} (f : α → α) (h : i ≠ j) :
    (b.modify i f).get j = b.get j :=
  PerInput.get_set_ne b _ h

theorem PerInput.get_modify {α : Type} (b : PerInput α) (i j : Input) (f : α → α) :
    (b.modify i f).get j = if i = j then f (b.get j) else b.get j := by
  by_cases h : i = j
  · subst h; simp
  · simp [h]

/-- Banks with equal members are equal. -/
theorem PerInput.ext_get {α : Type} {b c : PerInput α} (h : ∀ i, b.get i = c.get i) : b = c := by
  have e1 := h (.wheel .w1)
  have e2 := h (.wheel .w2)
  have e3 := h (.beam .ha)
  have e4 := h (.beam .hb)
  cases b; cases c
  simp only [PerInput.get] at e1 e2 e3 e4
  simp [e1, e2, e3, e4]

@[simp] theorem PerInput.set_set {α : Type} (b : PerInput α) (i : Input) (x y : α) : (b.set i x).set i y = b.set i y := by
  cases i with | wheel w => cases w <;> rfl | beam b => cases b <;> rfl

@[simp] theorem PerInput.set_get {α : Type} (b : PerInput α) (i : Input) : b.set i (b.get i) = b := by
  cases i with | wheel w => cases w <;> rfl | beam b => cases b <;> rfl

/-! ### PerBeam -/

@[simp] theorem PerBeam.get_set_self {α : Type} (b : PerBeam α) (i : Beam) (x : α) : (b.set i x).get i = x := by
  cases i <;> rfl

@[simp] theorem PerBeam.get_set_ne {α : Type} (b : PerBeam α) {i j : Beam} (x : α) (h : i ≠ j) : (b.set i x).get j = b.get j := by
  cases i <;> cases j <;> first | rfl | exact absurd rfl h

theorem PerBeam.get_set {α : Type} (b : PerBeam α) (i j : Beam) (x : α) :
    (b.set i x).get j = if i = j then x else b.get j := by
  by_cases h : i = j
  · subst h; simp
  · simp [h]

@[simp] theorem PerBeam.get_tabulate {α : Type} (f : Beam → α) (i : Beam) : (PerBeam.tabulate f).get i = f i := by
  cases i <;> rfl

@[simp] theorem PerBeam.get_modify_self {α : Type} (b : PerBeam α) (i : Beam) (f : α → α) : (b.modify i f).get i = f (b.get i) :=
  PerBeam.get_set_self b i _

@[simp] theorem PerBeam.get_modify_ne {α : Type} (b : PerBeam α) {i j : Beam} (f : α → α) (h : i ≠ j) :
    (b.modify i f).get j = b.get j :=
  PerBeam.get_set_ne b _ h

theorem PerBeam.get_modify {α : Type} (b : PerBeam α) (i j : Beam) (f : α → α) :
    (b.modify i f).get j = if i = j then f (b.get j) else b.get j := by
  by_cases h : i = j
  · subst h; simp
  · simp [h]

/-- Banks with equal members are equal. -/
theorem PerBeam.ext_get {α : Type} {b c : PerBeam α} (h : ∀ i, b.get i = c.get i) : b = c := by
  have e0 := h .ha
  have e1 := h .hb
  cases b; cases c
  simp only [PerBeam.get] at e0 e1
  simp [e0, e1]

@[simp] theorem PerBeam.set_set {α : Type} (b : PerBeam α) (i : Beam) (x y : α) : (b.set i x).set i y = b.set i y := by
  cases i <;> rfl

@[simp] theorem PerBeam.set_get {α : Type} (b : PerBeam α) (i : Beam) : b.set i (b.get i) = b := by
  cases i <;> rfl

/-! ### PerStation -/

@[simp] theorem PerStation.get_set_self {α : Type} (b : PerStation α) (i : Station) (x : α) : (b.set i x).get i = x := by
  cases i <;> rfl

@[simp] theorem PerStation.get_set_ne {α : Type} (b : PerStation α) {i j : Station} (x : α) (h : i ≠ j) : (b.set i x).get j = b.get j := by
  cases i <;> cases j <;> first | rfl | exact absurd rfl h

theorem PerStation.get_set {α : Type} (b : PerStation α) (i j : Station) (x : α) :
    (b.set i x).get j = if i = j then x else b.get j := by
  by_cases h : i = j
  · subst h; simp
  · simp [h]

@[simp] theorem PerStation.get_tabulate {α : Type} (f : Station → α) (i : Station) : (PerStation.tabulate f).get i = f i := by
  cases i <;> rfl

@[simp] theorem PerStation.get_modify_self {α : Type} (b : PerStation α) (i : Station) (f : α → α) : (b.modify i f).get i = f (b.get i) :=
  PerStation.get_set_self b i _

@[simp] theorem PerStation.get_modify_ne {α : Type} (b : PerStation α) {i j : Station} (f : α → α) (h : i ≠ j) :
    (b.modify i f).get j = b.get j :=
  PerStation.get_set_ne b _ h

theorem PerStation.get_modify {α : Type} (b : PerStation α) (i j : Station) (f : α → α) :
    (b.modify i f).get j = if i = j then f (b.get j) else b.get j := by
  by_cases h : i = j
  · subst h; simp
  · simp [h]

/-- Banks with equal members are equal. -/
theorem PerStation.ext_get {α : Type} {b c : PerStation α} (h : ∀ i, b.get i = c.get i) : b = c := by
  have e0 := h .s0
  have e1 := h .s1
  have e2 := h .s2
  have e3 := h .s3
  have e4 := h .s4
  have e5 := h .s5
  have e6 := h .s6
  have e7 := h .s7
  cases b; cases c
  simp only [PerStation.get] at e0 e1 e2 e3 e4 e5 e6 e7
  simp [e0, e1, e2, e3, e4, e5, e6, e7]

@[simp] theorem PerStation.set_set {α : Type} (b : PerStation α) (i : Station) (x y : α) : (b.set i x).set i y = b.set i y := by
  cases i <;> rfl

@[simp] theorem PerStation.set_get {α : Type} (b : PerStation α) (i : Station) : b.set i (b.get i) = b := by
  cases i <;> rfl

/-! ### PerUnit -/

@[simp] theorem PerUnit.get_set_self {α : Type} (b : PerUnit α) (i : FlashId) (x : α) : (b.set i x).get i = x := by
  cases i <;> rfl

@[simp] theorem PerUnit.get_set_ne {α : Type} (b : PerUnit α) {i j : FlashId} (x : α) (h : i ≠ j) : (b.set i x).get j = b.get j := by
  cases i <;> cases j <;> first | rfl | exact absurd rfl h

theorem PerUnit.get_set {α : Type} (b : PerUnit α) (i j : FlashId) (x : α) :
    (b.set i x).get j = if i = j then x else b.get j := by
  by_cases h : i = j
  · subst h; simp
  · simp [h]

@[simp] theorem PerUnit.get_tabulate {α : Type} (f : FlashId → α) (i : FlashId) : (PerUnit.tabulate f).get i = f i := by
  cases i <;> rfl

@[simp] theorem PerUnit.get_modify_self {α : Type} (b : PerUnit α) (i : FlashId) (f : α → α) : (b.modify i f).get i = f (b.get i) :=
  PerUnit.get_set_self b i _

@[simp] theorem PerUnit.get_modify_ne {α : Type} (b : PerUnit α) {i j : FlashId} (f : α → α) (h : i ≠ j) :
    (b.modify i f).get j = b.get j :=
  PerUnit.get_set_ne b _ h

theorem PerUnit.get_modify {α : Type} (b : PerUnit α) (i j : FlashId) (f : α → α) :
    (b.modify i f).get j = if i = j then f (b.get j) else b.get j := by
  by_cases h : i = j
  · subst h; simp
  · simp [h]

/-- Banks with equal members are equal. -/
theorem PerUnit.ext_get {α : Type} {b c : PerUnit α} (h : ∀ i, b.get i = c.get i) : b = c := by
  have e0 := h .u0
  have e1 := h .u1
  have e2 := h .u2
  have e3 := h .u3
  have e4 := h .u4
  have e5 := h .u5
  cases b; cases c
  simp only [PerUnit.get] at e0 e1 e2 e3 e4 e5
  simp [e0, e1, e2, e3, e4, e5]

@[simp] theorem PerUnit.set_set {α : Type} (b : PerUnit α) (i : FlashId) (x y : α) : (b.set i x).set i y = b.set i y := by
  cases i <;> rfl

@[simp] theorem PerUnit.set_get {α : Type} (b : PerUnit α) (i : FlashId) : b.set i (b.get i) = b := by
  cases i <;> rfl

/-! ### PerPort -/

@[simp] theorem PerPort.get_set_self {α : Type} (b : PerPort α) (i : PortId) (x : α) : (b.set i x).get i = x := by
  cases i <;> rfl

@[simp] theorem PerPort.get_set_ne {α : Type} (b : PerPort α) {i j : PortId} (x : α) (h : i ≠ j) : (b.set i x).get j = b.get j := by
  cases i <;> cases j <;> first | rfl | exact absurd rfl h

theorem PerPort.get_set {α : Type} (b : PerPort α) (i j : PortId) (x : α) :
    (b.set i x).get j = if i = j then x else b.get j := by
  by_cases h : i = j
  · subst h; simp
  · simp [h]

@[simp] theorem PerPort.get_tabulate {α : Type} (f : PortId → α) (i : PortId) : (PerPort.tabulate f).get i = f i := by
  cases i <;> rfl

@[simp] theorem PerPort.get_modify_self {α : Type} (b : PerPort α) (i : PortId) (f : α → α) : (b.modify i f).get i = f (b.get i) :=
  PerPort.get_set_self b i _

@[simp] theorem PerPort.get_modify_ne {α : Type} (b : PerPort α) {i j : PortId} (f : α → α) (h : i ≠ j) :
    (b.modify i f).get j = b.get j :=
  PerPort.get_set_ne b _ h

theorem PerPort.get_modify {α : Type} (b : PerPort α) (i j : PortId) (f : α → α) :
    (b.modify i f).get j = if i = j then f (b.get j) else b.get j := by
  by_cases h : i = j
  · subst h; simp
  · simp [h]

/-- Banks with equal members are equal. -/
theorem PerPort.ext_get {α : Type} {b c : PerPort α} (h : ∀ i, b.get i = c.get i) : b = c := by
  have e0 := h .p0
  have e1 := h .p1
  have e2 := h .p2
  have e3 := h .p3
  cases b; cases c
  simp only [PerPort.get] at e0 e1 e2 e3
  simp [e0, e1, e2, e3]

@[simp] theorem PerPort.set_set {α : Type} (b : PerPort α) (i : PortId) (x y : α) : (b.set i x).set i y = b.set i y := by
  cases i <;> rfl

@[simp] theorem PerPort.set_get {α : Type} (b : PerPort α) (i : PortId) : b.set i (b.get i) = b := by
  cases i <;> rfl

end Sys2Proof.Machine
end

