-- ==== Sys2Proof/Laws/State.lean ====
section
/-! SUPPORT. The field lemmas: for each update of State.lean and each field, what the field reads after the update. -/

namespace Sys2Proof.Machine

@[simp] theorem setClock_clock (s : State) (x : Clock) : (s.setClock x).clock = x := rfl
@[simp] theorem setClock_inputs (s : State) (x : Clock) : (s.setClock x).inputs = s.inputs := rfl
@[simp] theorem setClock_passages (s : State) (x : Clock) : (s.setClock x).passages = s.passages := rfl
@[simp] theorem setClock_nextPassage (s : State) (x : Clock) : (s.setClock x).nextPassage = s.nextPassage := rfl
@[simp] theorem setClock_heads (s : State) (x : Clock) : (s.setClock x).heads = s.heads := rfl
@[simp] theorem setClock_table (s : State) (x : Clock) : (s.setClock x).table = s.table := rfl
@[simp] theorem setClock_stations (s : State) (x : Clock) : (s.setClock x).stations = s.stations := rfl
@[simp] theorem setClock_units (s : State) (x : Clock) : (s.setClock x).units = s.units := rfl
@[simp] theorem setClock_inhibit (s : State) (x : Clock) : (s.setClock x).inhibit = s.inhibit := rfl
@[simp] theorem setClock_triggers (s : State) (x : Clock) : (s.setClock x).triggers = s.triggers := rfl
@[simp] theorem setClock_outputs (s : State) (x : Clock) : (s.setClock x).outputs = s.outputs := rfl
@[simp] theorem setClock_tracks (s : State) (x : Clock) : (s.setClock x).tracks = s.tracks := rfl
@[simp] theorem setClock_unitSnapshot (s : State) (x : Clock) : (s.setClock x).unitSnapshot = s.unitSnapshot := rfl
@[simp] theorem setClock_ports (s : State) (x : Clock) : (s.setClock x).ports = s.ports := rfl
@[simp] theorem setClock_bindings (s : State) (x : Clock) : (s.setClock x).bindings = s.bindings := rfl
@[simp] theorem setClock_faults (s : State) (x : Clock) : (s.setClock x).faults = s.faults := rfl
@[simp] theorem setClock_store (s : State) (x : Clock) : (s.setClock x).store = s.store := rfl
@[simp] theorem setClock_image (s : State) (x : Clock) : (s.setClock x).image = s.image := rfl
@[simp] theorem setClock_maint (s : State) (x : Clock) : (s.setClock x).maint = s.maint := rfl
@[simp] theorem setClock_choices (s : State) (x : Clock) : (s.setClock x).choices = s.choices := rfl
@[simp] theorem setClock_pending (s : State) (x : Clock) : (s.setClock x).pending = s.pending := rfl

@[simp] theorem setInputs_clock (s : State) (x : PerTrack (PerInput Conditioner)) : (s.setInputs x).clock = s.clock := rfl
@[simp] theorem setInputs_inputs (s : State) (x : PerTrack (PerInput Conditioner)) : (s.setInputs x).inputs = x := rfl
@[simp] theorem setInputs_passages (s : State) (x : PerTrack (PerInput Conditioner)) : (s.setInputs x).passages = s.passages := rfl
@[simp] theorem setInputs_nextPassage (s : State) (x : PerTrack (PerInput Conditioner)) : (s.setInputs x).nextPassage = s.nextPassage := rfl
@[simp] theorem setInputs_heads (s : State) (x : PerTrack (PerInput Conditioner)) : (s.setInputs x).heads = s.heads := rfl
@[simp] theorem setInputs_table (s : State) (x : PerTrack (PerInput Conditioner)) : (s.setInputs x).table = s.table := rfl
@[simp] theorem setInputs_stations (s : State) (x : PerTrack (PerInput Conditioner)) : (s.setInputs x).stations = s.stations := rfl
@[simp] theorem setInputs_units (s : State) (x : PerTrack (PerInput Conditioner)) : (s.setInputs x).units = s.units := rfl
@[simp] theorem setInputs_inhibit (s : State) (x : PerTrack (PerInput Conditioner)) : (s.setInputs x).inhibit = s.inhibit := rfl
@[simp] theorem setInputs_triggers (s : State) (x : PerTrack (PerInput Conditioner)) : (s.setInputs x).triggers = s.triggers := rfl
@[simp] theorem setInputs_outputs (s : State) (x : PerTrack (PerInput Conditioner)) : (s.setInputs x).outputs = s.outputs := rfl
@[simp] theorem setInputs_tracks (s : State) (x : PerTrack (PerInput Conditioner)) : (s.setInputs x).tracks = s.tracks := rfl
@[simp] theorem setInputs_unitSnapshot (s : State) (x : PerTrack (PerInput Conditioner)) : (s.setInputs x).unitSnapshot = s.unitSnapshot := rfl
@[simp] theorem setInputs_ports (s : State) (x : PerTrack (PerInput Conditioner)) : (s.setInputs x).ports = s.ports := rfl
@[simp] theorem setInputs_bindings (s : State) (x : PerTrack (PerInput Conditioner)) : (s.setInputs x).bindings = s.bindings := rfl
@[simp] theorem setInputs_faults (s : State) (x : PerTrack (PerInput Conditioner)) : (s.setInputs x).faults = s.faults := rfl
@[simp] theorem setInputs_store (s : State) (x : PerTrack (PerInput Conditioner)) : (s.setInputs x).store = s.store := rfl
@[simp] theorem setInputs_image (s : State) (x : PerTrack (PerInput Conditioner)) : (s.setInputs x).image = s.image := rfl
@[simp] theorem setInputs_maint (s : State) (x : PerTrack (PerInput Conditioner)) : (s.setInputs x).maint = s.maint := rfl
@[simp] theorem setInputs_choices (s : State) (x : PerTrack (PerInput Conditioner)) : (s.setInputs x).choices = s.choices := rfl
@[simp] theorem setInputs_pending (s : State) (x : PerTrack (PerInput Conditioner)) : (s.setInputs x).pending = s.pending := rfl

@[simp] theorem setPassages_clock (s : State) (x : PerTrack (Option Passage)) : (s.setPassages x).clock = s.clock := rfl
@[simp] theorem setPassages_inputs (s : State) (x : PerTrack (Option Passage)) : (s.setPassages x).inputs = s.inputs := rfl
@[simp] theorem setPassages_passages (s : State) (x : PerTrack (Option Passage)) : (s.setPassages x).passages = x := rfl
@[simp] theorem setPassages_nextPassage (s : State) (x : PerTrack (Option Passage)) : (s.setPassages x).nextPassage = s.nextPassage := rfl
@[simp] theorem setPassages_heads (s : State) (x : PerTrack (Option Passage)) : (s.setPassages x).heads = s.heads := rfl
@[simp] theorem setPassages_table (s : State) (x : PerTrack (Option Passage)) : (s.setPassages x).table = s.table := rfl
@[simp] theorem setPassages_stations (s : State) (x : PerTrack (Option Passage)) : (s.setPassages x).stations = s.stations := rfl
@[simp] theorem setPassages_units (s : State) (x : PerTrack (Option Passage)) : (s.setPassages x).units = s.units := rfl
@[simp] theorem setPassages_inhibit (s : State) (x : PerTrack (Option Passage)) : (s.setPassages x).inhibit = s.inhibit := rfl
@[simp] theorem setPassages_triggers (s : State) (x : PerTrack (Option Passage)) : (s.setPassages x).triggers = s.triggers := rfl
@[simp] theorem setPassages_outputs (s : State) (x : PerTrack (Option Passage)) : (s.setPassages x).outputs = s.outputs := rfl
@[simp] theorem setPassages_tracks (s : State) (x : PerTrack (Option Passage)) : (s.setPassages x).tracks = s.tracks := rfl
@[simp] theorem setPassages_unitSnapshot (s : State) (x : PerTrack (Option Passage)) : (s.setPassages x).unitSnapshot = s.unitSnapshot := rfl
@[simp] theorem setPassages_ports (s : State) (x : PerTrack (Option Passage)) : (s.setPassages x).ports = s.ports := rfl
@[simp] theorem setPassages_bindings (s : State) (x : PerTrack (Option Passage)) : (s.setPassages x).bindings = s.bindings := rfl
@[simp] theorem setPassages_faults (s : State) (x : PerTrack (Option Passage)) : (s.setPassages x).faults = s.faults := rfl
@[simp] theorem setPassages_store (s : State) (x : PerTrack (Option Passage)) : (s.setPassages x).store = s.store := rfl
@[simp] theorem setPassages_image (s : State) (x : PerTrack (Option Passage)) : (s.setPassages x).image = s.image := rfl
@[simp] theorem setPassages_maint (s : State) (x : PerTrack (Option Passage)) : (s.setPassages x).maint = s.maint := rfl
@[simp] theorem setPassages_choices (s : State) (x : PerTrack (Option Passage)) : (s.setPassages x).choices = s.choices := rfl
@[simp] theorem setPassages_pending (s : State) (x : PerTrack (Option Passage)) : (s.setPassages x).pending = s.pending := rfl

@[simp] theorem setNextPassage_clock (s : State) (x : Nat) : (s.setNextPassage x).clock = s.clock := rfl
@[simp] theorem setNextPassage_inputs (s : State) (x : Nat) : (s.setNextPassage x).inputs = s.inputs := rfl
@[simp] theorem setNextPassage_passages (s : State) (x : Nat) : (s.setNextPassage x).passages = s.passages := rfl
@[simp] theorem setNextPassage_nextPassage (s : State) (x : Nat) : (s.setNextPassage x).nextPassage = x := rfl
@[simp] theorem setNextPassage_heads (s : State) (x : Nat) : (s.setNextPassage x).heads = s.heads := rfl
@[simp] theorem setNextPassage_table (s : State) (x : Nat) : (s.setNextPassage x).table = s.table := rfl
@[simp] theorem setNextPassage_stations (s : State) (x : Nat) : (s.setNextPassage x).stations = s.stations := rfl
@[simp] theorem setNextPassage_units (s : State) (x : Nat) : (s.setNextPassage x).units = s.units := rfl
@[simp] theorem setNextPassage_inhibit (s : State) (x : Nat) : (s.setNextPassage x).inhibit = s.inhibit := rfl
@[simp] theorem setNextPassage_triggers (s : State) (x : Nat) : (s.setNextPassage x).triggers = s.triggers := rfl
@[simp] theorem setNextPassage_outputs (s : State) (x : Nat) : (s.setNextPassage x).outputs = s.outputs := rfl
@[simp] theorem setNextPassage_tracks (s : State) (x : Nat) : (s.setNextPassage x).tracks = s.tracks := rfl
@[simp] theorem setNextPassage_unitSnapshot (s : State) (x : Nat) : (s.setNextPassage x).unitSnapshot = s.unitSnapshot := rfl
@[simp] theorem setNextPassage_ports (s : State) (x : Nat) : (s.setNextPassage x).ports = s.ports := rfl
@[simp] theorem setNextPassage_bindings (s : State) (x : Nat) : (s.setNextPassage x).bindings = s.bindings := rfl
@[simp] theorem setNextPassage_faults (s : State) (x : Nat) : (s.setNextPassage x).faults = s.faults := rfl
@[simp] theorem setNextPassage_store (s : State) (x : Nat) : (s.setNextPassage x).store = s.store := rfl
@[simp] theorem setNextPassage_image (s : State) (x : Nat) : (s.setNextPassage x).image = s.image := rfl
@[simp] theorem setNextPassage_maint (s : State) (x : Nat) : (s.setNextPassage x).maint = s.maint := rfl
@[simp] theorem setNextPassage_choices (s : State) (x : Nat) : (s.setNextPassage x).choices = s.choices := rfl
@[simp] theorem setNextPassage_pending (s : State) (x : Nat) : (s.setNextPassage x).pending = s.pending := rfl

@[simp] theorem setHeads_clock (s : State) (x : PerTrack (PerBeam HeadUnit)) : (s.setHeads x).clock = s.clock := rfl
@[simp] theorem setHeads_inputs (s : State) (x : PerTrack (PerBeam HeadUnit)) : (s.setHeads x).inputs = s.inputs := rfl
@[simp] theorem setHeads_passages (s : State) (x : PerTrack (PerBeam HeadUnit)) : (s.setHeads x).passages = s.passages := rfl
@[simp] theorem setHeads_nextPassage (s : State) (x : PerTrack (PerBeam HeadUnit)) : (s.setHeads x).nextPassage = s.nextPassage := rfl
@[simp] theorem setHeads_heads (s : State) (x : PerTrack (PerBeam HeadUnit)) : (s.setHeads x).heads = x := rfl
@[simp] theorem setHeads_table (s : State) (x : PerTrack (PerBeam HeadUnit)) : (s.setHeads x).table = s.table := rfl
@[simp] theorem setHeads_stations (s : State) (x : PerTrack (PerBeam HeadUnit)) : (s.setHeads x).stations = s.stations := rfl
@[simp] theorem setHeads_units (s : State) (x : PerTrack (PerBeam HeadUnit)) : (s.setHeads x).units = s.units := rfl
@[simp] theorem setHeads_inhibit (s : State) (x : PerTrack (PerBeam HeadUnit)) : (s.setHeads x).inhibit = s.inhibit := rfl
@[simp] theorem setHeads_triggers (s : State) (x : PerTrack (PerBeam HeadUnit)) : (s.setHeads x).triggers = s.triggers := rfl
@[simp] theorem setHeads_outputs (s : State) (x : PerTrack (PerBeam HeadUnit)) : (s.setHeads x).outputs = s.outputs := rfl
@[simp] theorem setHeads_tracks (s : State) (x : PerTrack (PerBeam HeadUnit)) : (s.setHeads x).tracks = s.tracks := rfl
@[simp] theorem setHeads_unitSnapshot (s : State) (x : PerTrack (PerBeam HeadUnit)) : (s.setHeads x).unitSnapshot = s.unitSnapshot := rfl
@[simp] theorem setHeads_ports (s : State) (x : PerTrack (PerBeam HeadUnit)) : (s.setHeads x).ports = s.ports := rfl
@[simp] theorem setHeads_bindings (s : State) (x : PerTrack (PerBeam HeadUnit)) : (s.setHeads x).bindings = s.bindings := rfl
@[simp] theorem setHeads_faults (s : State) (x : PerTrack (PerBeam HeadUnit)) : (s.setHeads x).faults = s.faults := rfl
@[simp] theorem setHeads_store (s : State) (x : PerTrack (PerBeam HeadUnit)) : (s.setHeads x).store = s.store := rfl
@[simp] theorem setHeads_image (s : State) (x : PerTrack (PerBeam HeadUnit)) : (s.setHeads x).image = s.image := rfl
@[simp] theorem setHeads_maint (s : State) (x : PerTrack (PerBeam HeadUnit)) : (s.setHeads x).maint = s.maint := rfl
@[simp] theorem setHeads_choices (s : State) (x : PerTrack (PerBeam HeadUnit)) : (s.setHeads x).choices = s.choices := rfl
@[simp] theorem setHeads_pending (s : State) (x : PerTrack (PerBeam HeadUnit)) : (s.setHeads x).pending = s.pending := rfl

@[simp] theorem setTable_clock (s : State) (x : RecordTable) : (s.setTable x).clock = s.clock := rfl
@[simp] theorem setTable_inputs (s : State) (x : RecordTable) : (s.setTable x).inputs = s.inputs := rfl
@[simp] theorem setTable_passages (s : State) (x : RecordTable) : (s.setTable x).passages = s.passages := rfl
@[simp] theorem setTable_nextPassage (s : State) (x : RecordTable) : (s.setTable x).nextPassage = s.nextPassage := rfl
@[simp] theorem setTable_heads (s : State) (x : RecordTable) : (s.setTable x).heads = s.heads := rfl
@[simp] theorem setTable_table (s : State) (x : RecordTable) : (s.setTable x).table = x := rfl
@[simp] theorem setTable_stations (s : State) (x : RecordTable) : (s.setTable x).stations = s.stations := rfl
@[simp] theorem setTable_units (s : State) (x : RecordTable) : (s.setTable x).units = s.units := rfl
@[simp] theorem setTable_inhibit (s : State) (x : RecordTable) : (s.setTable x).inhibit = s.inhibit := rfl
@[simp] theorem setTable_triggers (s : State) (x : RecordTable) : (s.setTable x).triggers = s.triggers := rfl
@[simp] theorem setTable_outputs (s : State) (x : RecordTable) : (s.setTable x).outputs = s.outputs := rfl
@[simp] theorem setTable_tracks (s : State) (x : RecordTable) : (s.setTable x).tracks = s.tracks := rfl
@[simp] theorem setTable_unitSnapshot (s : State) (x : RecordTable) : (s.setTable x).unitSnapshot = s.unitSnapshot := rfl
@[simp] theorem setTable_ports (s : State) (x : RecordTable) : (s.setTable x).ports = s.ports := rfl
@[simp] theorem setTable_bindings (s : State) (x : RecordTable) : (s.setTable x).bindings = s.bindings := rfl
@[simp] theorem setTable_faults (s : State) (x : RecordTable) : (s.setTable x).faults = s.faults := rfl
@[simp] theorem setTable_store (s : State) (x : RecordTable) : (s.setTable x).store = s.store := rfl
@[simp] theorem setTable_image (s : State) (x : RecordTable) : (s.setTable x).image = s.image := rfl
@[simp] theorem setTable_maint (s : State) (x : RecordTable) : (s.setTable x).maint = s.maint := rfl
@[simp] theorem setTable_choices (s : State) (x : RecordTable) : (s.setTable x).choices = s.choices := rfl
@[simp] theorem setTable_pending (s : State) (x : RecordTable) : (s.setTable x).pending = s.pending := rfl

@[simp] theorem setStations_clock (s : State) (x : PerStation Occupancy) : (s.setStations x).clock = s.clock := rfl
@[simp] theorem setStations_inputs (s : State) (x : PerStation Occupancy) : (s.setStations x).inputs = s.inputs := rfl
@[simp] theorem setStations_passages (s : State) (x : PerStation Occupancy) : (s.setStations x).passages = s.passages := rfl
@[simp] theorem setStations_nextPassage (s : State) (x : PerStation Occupancy) : (s.setStations x).nextPassage = s.nextPassage := rfl
@[simp] theorem setStations_heads (s : State) (x : PerStation Occupancy) : (s.setStations x).heads = s.heads := rfl
@[simp] theorem setStations_table (s : State) (x : PerStation Occupancy) : (s.setStations x).table = s.table := rfl
@[simp] theorem setStations_stations (s : State) (x : PerStation Occupancy) : (s.setStations x).stations = x := rfl
@[simp] theorem setStations_units (s : State) (x : PerStation Occupancy) : (s.setStations x).units = s.units := rfl
@[simp] theorem setStations_inhibit (s : State) (x : PerStation Occupancy) : (s.setStations x).inhibit = s.inhibit := rfl
@[simp] theorem setStations_triggers (s : State) (x : PerStation Occupancy) : (s.setStations x).triggers = s.triggers := rfl
@[simp] theorem setStations_outputs (s : State) (x : PerStation Occupancy) : (s.setStations x).outputs = s.outputs := rfl
@[simp] theorem setStations_tracks (s : State) (x : PerStation Occupancy) : (s.setStations x).tracks = s.tracks := rfl
@[simp] theorem setStations_unitSnapshot (s : State) (x : PerStation Occupancy) : (s.setStations x).unitSnapshot = s.unitSnapshot := rfl
@[simp] theorem setStations_ports (s : State) (x : PerStation Occupancy) : (s.setStations x).ports = s.ports := rfl
@[simp] theorem setStations_bindings (s : State) (x : PerStation Occupancy) : (s.setStations x).bindings = s.bindings := rfl
@[simp] theorem setStations_faults (s : State) (x : PerStation Occupancy) : (s.setStations x).faults = s.faults := rfl
@[simp] theorem setStations_store (s : State) (x : PerStation Occupancy) : (s.setStations x).store = s.store := rfl
@[simp] theorem setStations_image (s : State) (x : PerStation Occupancy) : (s.setStations x).image = s.image := rfl
@[simp] theorem setStations_maint (s : State) (x : PerStation Occupancy) : (s.setStations x).maint = s.maint := rfl
@[simp] theorem setStations_choices (s : State) (x : PerStation Occupancy) : (s.setStations x).choices = s.choices := rfl
@[simp] theorem setStations_pending (s : State) (x : PerStation Occupancy) : (s.setStations x).pending = s.pending := rfl

@[simp] theorem setUnits_clock (s : State) (x : PerUnit FlashUnit) : (s.setUnits x).clock = s.clock := rfl
@[simp] theorem setUnits_inputs (s : State) (x : PerUnit FlashUnit) : (s.setUnits x).inputs = s.inputs := rfl
@[simp] theorem setUnits_passages (s : State) (x : PerUnit FlashUnit) : (s.setUnits x).passages = s.passages := rfl
@[simp] theorem setUnits_nextPassage (s : State) (x : PerUnit FlashUnit) : (s.setUnits x).nextPassage = s.nextPassage := rfl
@[simp] theorem setUnits_heads (s : State) (x : PerUnit FlashUnit) : (s.setUnits x).heads = s.heads := rfl
@[simp] theorem setUnits_table (s : State) (x : PerUnit FlashUnit) : (s.setUnits x).table = s.table := rfl
@[simp] theorem setUnits_stations (s : State) (x : PerUnit FlashUnit) : (s.setUnits x).stations = s.stations := rfl
@[simp] theorem setUnits_units (s : State) (x : PerUnit FlashUnit) : (s.setUnits x).units = x := rfl
@[simp] theorem setUnits_inhibit (s : State) (x : PerUnit FlashUnit) : (s.setUnits x).inhibit = s.inhibit := rfl
@[simp] theorem setUnits_triggers (s : State) (x : PerUnit FlashUnit) : (s.setUnits x).triggers = s.triggers := rfl
@[simp] theorem setUnits_outputs (s : State) (x : PerUnit FlashUnit) : (s.setUnits x).outputs = s.outputs := rfl
@[simp] theorem setUnits_tracks (s : State) (x : PerUnit FlashUnit) : (s.setUnits x).tracks = s.tracks := rfl
@[simp] theorem setUnits_unitSnapshot (s : State) (x : PerUnit FlashUnit) : (s.setUnits x).unitSnapshot = s.unitSnapshot := rfl
@[simp] theorem setUnits_ports (s : State) (x : PerUnit FlashUnit) : (s.setUnits x).ports = s.ports := rfl
@[simp] theorem setUnits_bindings (s : State) (x : PerUnit FlashUnit) : (s.setUnits x).bindings = s.bindings := rfl
@[simp] theorem setUnits_faults (s : State) (x : PerUnit FlashUnit) : (s.setUnits x).faults = s.faults := rfl
@[simp] theorem setUnits_store (s : State) (x : PerUnit FlashUnit) : (s.setUnits x).store = s.store := rfl
@[simp] theorem setUnits_image (s : State) (x : PerUnit FlashUnit) : (s.setUnits x).image = s.image := rfl
@[simp] theorem setUnits_maint (s : State) (x : PerUnit FlashUnit) : (s.setUnits x).maint = s.maint := rfl
@[simp] theorem setUnits_choices (s : State) (x : PerUnit FlashUnit) : (s.setUnits x).choices = s.choices := rfl
@[simp] theorem setUnits_pending (s : State) (x : PerUnit FlashUnit) : (s.setUnits x).pending = s.pending := rfl

@[simp] theorem setInhibit_clock (s : State) (x : Inhibit) : (s.setInhibit x).clock = s.clock := rfl
@[simp] theorem setInhibit_inputs (s : State) (x : Inhibit) : (s.setInhibit x).inputs = s.inputs := rfl
@[simp] theorem setInhibit_passages (s : State) (x : Inhibit) : (s.setInhibit x).passages = s.passages := rfl
@[simp] theorem setInhibit_nextPassage (s : State) (x : Inhibit) : (s.setInhibit x).nextPassage = s.nextPassage := rfl
@[simp] theorem setInhibit_heads (s : State) (x : Inhibit) : (s.setInhibit x).heads = s.heads := rfl
@[simp] theorem setInhibit_table (s : State) (x : Inhibit) : (s.setInhibit x).table = s.table := rfl
@[simp] theorem setInhibit_stations (s : State) (x : Inhibit) : (s.setInhibit x).stations = s.stations := rfl
@[simp] theorem setInhibit_units (s : State) (x : Inhibit) : (s.setInhibit x).units = s.units := rfl
@[simp] theorem setInhibit_inhibit (s : State) (x : Inhibit) : (s.setInhibit x).inhibit = x := rfl
@[simp] theorem setInhibit_triggers (s : State) (x : Inhibit) : (s.setInhibit x).triggers = s.triggers := rfl
@[simp] theorem setInhibit_outputs (s : State) (x : Inhibit) : (s.setInhibit x).outputs = s.outputs := rfl
@[simp] theorem setInhibit_tracks (s : State) (x : Inhibit) : (s.setInhibit x).tracks = s.tracks := rfl
@[simp] theorem setInhibit_unitSnapshot (s : State) (x : Inhibit) : (s.setInhibit x).unitSnapshot = s.unitSnapshot := rfl
@[simp] theorem setInhibit_ports (s : State) (x : Inhibit) : (s.setInhibit x).ports = s.ports := rfl
@[simp] theorem setInhibit_bindings (s : State) (x : Inhibit) : (s.setInhibit x).bindings = s.bindings := rfl
@[simp] theorem setInhibit_faults (s : State) (x : Inhibit) : (s.setInhibit x).faults = s.faults := rfl
@[simp] theorem setInhibit_store (s : State) (x : Inhibit) : (s.setInhibit x).store = s.store := rfl
@[simp] theorem setInhibit_image (s : State) (x : Inhibit) : (s.setInhibit x).image = s.image := rfl
@[simp] theorem setInhibit_maint (s : State) (x : Inhibit) : (s.setInhibit x).maint = s.maint := rfl
@[simp] theorem setInhibit_choices (s : State) (x : Inhibit) : (s.setInhibit x).choices = s.choices := rfl
@[simp] theorem setInhibit_pending (s : State) (x : Inhibit) : (s.setInhibit x).pending = s.pending := rfl

@[simp] theorem setTriggers_clock (s : State) (x : List Entry) : (s.setTriggers x).clock = s.clock := rfl
@[simp] theorem setTriggers_inputs (s : State) (x : List Entry) : (s.setTriggers x).inputs = s.inputs := rfl
@[simp] theorem setTriggers_passages (s : State) (x : List Entry) : (s.setTriggers x).passages = s.passages := rfl
@[simp] theorem setTriggers_nextPassage (s : State) (x : List Entry) : (s.setTriggers x).nextPassage = s.nextPassage := rfl
@[simp] theorem setTriggers_heads (s : State) (x : List Entry) : (s.setTriggers x).heads = s.heads := rfl
@[simp] theorem setTriggers_table (s : State) (x : List Entry) : (s.setTriggers x).table = s.table := rfl
@[simp] theorem setTriggers_stations (s : State) (x : List Entry) : (s.setTriggers x).stations = s.stations := rfl
@[simp] theorem setTriggers_units (s : State) (x : List Entry) : (s.setTriggers x).units = s.units := rfl
@[simp] theorem setTriggers_inhibit (s : State) (x : List Entry) : (s.setTriggers x).inhibit = s.inhibit := rfl
@[simp] theorem setTriggers_triggers (s : State) (x : List Entry) : (s.setTriggers x).triggers = x := rfl
@[simp] theorem setTriggers_outputs (s : State) (x : List Entry) : (s.setTriggers x).outputs = s.outputs := rfl
@[simp] theorem setTriggers_tracks (s : State) (x : List Entry) : (s.setTriggers x).tracks = s.tracks := rfl
@[simp] theorem setTriggers_unitSnapshot (s : State) (x : List Entry) : (s.setTriggers x).unitSnapshot = s.unitSnapshot := rfl
@[simp] theorem setTriggers_ports (s : State) (x : List Entry) : (s.setTriggers x).ports = s.ports := rfl
@[simp] theorem setTriggers_bindings (s : State) (x : List Entry) : (s.setTriggers x).bindings = s.bindings := rfl
@[simp] theorem setTriggers_faults (s : State) (x : List Entry) : (s.setTriggers x).faults = s.faults := rfl
@[simp] theorem setTriggers_store (s : State) (x : List Entry) : (s.setTriggers x).store = s.store := rfl
@[simp] theorem setTriggers_image (s : State) (x : List Entry) : (s.setTriggers x).image = s.image := rfl
@[simp] theorem setTriggers_maint (s : State) (x : List Entry) : (s.setTriggers x).maint = s.maint := rfl
@[simp] theorem setTriggers_choices (s : State) (x : List Entry) : (s.setTriggers x).choices = s.choices := rfl
@[simp] theorem setTriggers_pending (s : State) (x : List Entry) : (s.setTriggers x).pending = s.pending := rfl

@[simp] theorem setOutputs_clock (s : State) (x : Outputs) : (s.setOutputs x).clock = s.clock := rfl
@[simp] theorem setOutputs_inputs (s : State) (x : Outputs) : (s.setOutputs x).inputs = s.inputs := rfl
@[simp] theorem setOutputs_passages (s : State) (x : Outputs) : (s.setOutputs x).passages = s.passages := rfl
@[simp] theorem setOutputs_nextPassage (s : State) (x : Outputs) : (s.setOutputs x).nextPassage = s.nextPassage := rfl
@[simp] theorem setOutputs_heads (s : State) (x : Outputs) : (s.setOutputs x).heads = s.heads := rfl
@[simp] theorem setOutputs_table (s : State) (x : Outputs) : (s.setOutputs x).table = s.table := rfl
@[simp] theorem setOutputs_stations (s : State) (x : Outputs) : (s.setOutputs x).stations = s.stations := rfl
@[simp] theorem setOutputs_units (s : State) (x : Outputs) : (s.setOutputs x).units = s.units := rfl
@[simp] theorem setOutputs_inhibit (s : State) (x : Outputs) : (s.setOutputs x).inhibit = s.inhibit := rfl
@[simp] theorem setOutputs_triggers (s : State) (x : Outputs) : (s.setOutputs x).triggers = s.triggers := rfl
@[simp] theorem setOutputs_outputs (s : State) (x : Outputs) : (s.setOutputs x).outputs = x := rfl
@[simp] theorem setOutputs_tracks (s : State) (x : Outputs) : (s.setOutputs x).tracks = s.tracks := rfl
@[simp] theorem setOutputs_unitSnapshot (s : State) (x : Outputs) : (s.setOutputs x).unitSnapshot = s.unitSnapshot := rfl
@[simp] theorem setOutputs_ports (s : State) (x : Outputs) : (s.setOutputs x).ports = s.ports := rfl
@[simp] theorem setOutputs_bindings (s : State) (x : Outputs) : (s.setOutputs x).bindings = s.bindings := rfl
@[simp] theorem setOutputs_faults (s : State) (x : Outputs) : (s.setOutputs x).faults = s.faults := rfl
@[simp] theorem setOutputs_store (s : State) (x : Outputs) : (s.setOutputs x).store = s.store := rfl
@[simp] theorem setOutputs_image (s : State) (x : Outputs) : (s.setOutputs x).image = s.image := rfl
@[simp] theorem setOutputs_maint (s : State) (x : Outputs) : (s.setOutputs x).maint = s.maint := rfl
@[simp] theorem setOutputs_choices (s : State) (x : Outputs) : (s.setOutputs x).choices = s.choices := rfl
@[simp] theorem setOutputs_pending (s : State) (x : Outputs) : (s.setOutputs x).pending = s.pending := rfl

@[simp] theorem setTracks_clock (s : State) (x : PerTrack TrackControl) : (s.setTracks x).clock = s.clock := rfl
@[simp] theorem setTracks_inputs (s : State) (x : PerTrack TrackControl) : (s.setTracks x).inputs = s.inputs := rfl
@[simp] theorem setTracks_passages (s : State) (x : PerTrack TrackControl) : (s.setTracks x).passages = s.passages := rfl
@[simp] theorem setTracks_nextPassage (s : State) (x : PerTrack TrackControl) : (s.setTracks x).nextPassage = s.nextPassage := rfl
@[simp] theorem setTracks_heads (s : State) (x : PerTrack TrackControl) : (s.setTracks x).heads = s.heads := rfl
@[simp] theorem setTracks_table (s : State) (x : PerTrack TrackControl) : (s.setTracks x).table = s.table := rfl
@[simp] theorem setTracks_stations (s : State) (x : PerTrack TrackControl) : (s.setTracks x).stations = s.stations := rfl
@[simp] theorem setTracks_units (s : State) (x : PerTrack TrackControl) : (s.setTracks x).units = s.units := rfl
@[simp] theorem setTracks_inhibit (s : State) (x : PerTrack TrackControl) : (s.setTracks x).inhibit = s.inhibit := rfl
@[simp] theorem setTracks_triggers (s : State) (x : PerTrack TrackControl) : (s.setTracks x).triggers = s.triggers := rfl
@[simp] theorem setTracks_outputs (s : State) (x : PerTrack TrackControl) : (s.setTracks x).outputs = s.outputs := rfl
@[simp] theorem setTracks_tracks (s : State) (x : PerTrack TrackControl) : (s.setTracks x).tracks = x := rfl
@[simp] theorem setTracks_unitSnapshot (s : State) (x : PerTrack TrackControl) : (s.setTracks x).unitSnapshot = s.unitSnapshot := rfl
@[simp] theorem setTracks_ports (s : State) (x : PerTrack TrackControl) : (s.setTracks x).ports = s.ports := rfl
@[simp] theorem setTracks_bindings (s : State) (x : PerTrack TrackControl) : (s.setTracks x).bindings = s.bindings := rfl
@[simp] theorem setTracks_faults (s : State) (x : PerTrack TrackControl) : (s.setTracks x).faults = s.faults := rfl
@[simp] theorem setTracks_store (s : State) (x : PerTrack TrackControl) : (s.setTracks x).store = s.store := rfl
@[simp] theorem setTracks_image (s : State) (x : PerTrack TrackControl) : (s.setTracks x).image = s.image := rfl
@[simp] theorem setTracks_maint (s : State) (x : PerTrack TrackControl) : (s.setTracks x).maint = s.maint := rfl
@[simp] theorem setTracks_choices (s : State) (x : PerTrack TrackControl) : (s.setTracks x).choices = s.choices := rfl
@[simp] theorem setTracks_pending (s : State) (x : PerTrack TrackControl) : (s.setTracks x).pending = s.pending := rfl

@[simp] theorem setUnitSnapshot_clock (s : State) (x : Option (PerUnit UnitConfig)) : (s.setUnitSnapshot x).clock = s.clock := rfl
@[simp] theorem setUnitSnapshot_inputs (s : State) (x : Option (PerUnit UnitConfig)) : (s.setUnitSnapshot x).inputs = s.inputs := rfl
@[simp] theorem setUnitSnapshot_passages (s : State) (x : Option (PerUnit UnitConfig)) : (s.setUnitSnapshot x).passages = s.passages := rfl
@[simp] theorem setUnitSnapshot_nextPassage (s : State) (x : Option (PerUnit UnitConfig)) : (s.setUnitSnapshot x).nextPassage = s.nextPassage := rfl
@[simp] theorem setUnitSnapshot_heads (s : State) (x : Option (PerUnit UnitConfig)) : (s.setUnitSnapshot x).heads = s.heads := rfl
@[simp] theorem setUnitSnapshot_table (s : State) (x : Option (PerUnit UnitConfig)) : (s.setUnitSnapshot x).table = s.table := rfl
@[simp] theorem setUnitSnapshot_stations (s : State) (x : Option (PerUnit UnitConfig)) : (s.setUnitSnapshot x).stations = s.stations := rfl
@[simp] theorem setUnitSnapshot_units (s : State) (x : Option (PerUnit UnitConfig)) : (s.setUnitSnapshot x).units = s.units := rfl
@[simp] theorem setUnitSnapshot_inhibit (s : State) (x : Option (PerUnit UnitConfig)) : (s.setUnitSnapshot x).inhibit = s.inhibit := rfl
@[simp] theorem setUnitSnapshot_triggers (s : State) (x : Option (PerUnit UnitConfig)) : (s.setUnitSnapshot x).triggers = s.triggers := rfl
@[simp] theorem setUnitSnapshot_outputs (s : State) (x : Option (PerUnit UnitConfig)) : (s.setUnitSnapshot x).outputs = s.outputs := rfl
@[simp] theorem setUnitSnapshot_tracks (s : State) (x : Option (PerUnit UnitConfig)) : (s.setUnitSnapshot x).tracks = s.tracks := rfl
@[simp] theorem setUnitSnapshot_unitSnapshot (s : State) (x : Option (PerUnit UnitConfig)) : (s.setUnitSnapshot x).unitSnapshot = x := rfl
@[simp] theorem setUnitSnapshot_ports (s : State) (x : Option (PerUnit UnitConfig)) : (s.setUnitSnapshot x).ports = s.ports := rfl
@[simp] theorem setUnitSnapshot_bindings (s : State) (x : Option (PerUnit UnitConfig)) : (s.setUnitSnapshot x).bindings = s.bindings := rfl
@[simp] theorem setUnitSnapshot_faults (s : State) (x : Option (PerUnit UnitConfig)) : (s.setUnitSnapshot x).faults = s.faults := rfl
@[simp] theorem setUnitSnapshot_store (s : State) (x : Option (PerUnit UnitConfig)) : (s.setUnitSnapshot x).store = s.store := rfl
@[simp] theorem setUnitSnapshot_image (s : State) (x : Option (PerUnit UnitConfig)) : (s.setUnitSnapshot x).image = s.image := rfl
@[simp] theorem setUnitSnapshot_maint (s : State) (x : Option (PerUnit UnitConfig)) : (s.setUnitSnapshot x).maint = s.maint := rfl
@[simp] theorem setUnitSnapshot_choices (s : State) (x : Option (PerUnit UnitConfig)) : (s.setUnitSnapshot x).choices = s.choices := rfl
@[simp] theorem setUnitSnapshot_pending (s : State) (x : Option (PerUnit UnitConfig)) : (s.setUnitSnapshot x).pending = s.pending := rfl

@[simp] theorem setPorts_clock (s : State) (x : PerPort Port) : (s.setPorts x).clock = s.clock := rfl
@[simp] theorem setPorts_inputs (s : State) (x : PerPort Port) : (s.setPorts x).inputs = s.inputs := rfl
@[simp] theorem setPorts_passages (s : State) (x : PerPort Port) : (s.setPorts x).passages = s.passages := rfl
@[simp] theorem setPorts_nextPassage (s : State) (x : PerPort Port) : (s.setPorts x).nextPassage = s.nextPassage := rfl
@[simp] theorem setPorts_heads (s : State) (x : PerPort Port) : (s.setPorts x).heads = s.heads := rfl
@[simp] theorem setPorts_table (s : State) (x : PerPort Port) : (s.setPorts x).table = s.table := rfl
@[simp] theorem setPorts_stations (s : State) (x : PerPort Port) : (s.setPorts x).stations = s.stations := rfl
@[simp] theorem setPorts_units (s : State) (x : PerPort Port) : (s.setPorts x).units = s.units := rfl
@[simp] theorem setPorts_inhibit (s : State) (x : PerPort Port) : (s.setPorts x).inhibit = s.inhibit := rfl
@[simp] theorem setPorts_triggers (s : State) (x : PerPort Port) : (s.setPorts x).triggers = s.triggers := rfl
@[simp] theorem setPorts_outputs (s : State) (x : PerPort Port) : (s.setPorts x).outputs = s.outputs := rfl
@[simp] theorem setPorts_tracks (s : State) (x : PerPort Port) : (s.setPorts x).tracks = s.tracks := rfl
@[simp] theorem setPorts_unitSnapshot (s : State) (x : PerPort Port) : (s.setPorts x).unitSnapshot = s.unitSnapshot := rfl
@[simp] theorem setPorts_ports (s : State) (x : PerPort Port) : (s.setPorts x).ports = x := rfl
@[simp] theorem setPorts_bindings (s : State) (x : PerPort Port) : (s.setPorts x).bindings = s.bindings := rfl
@[simp] theorem setPorts_faults (s : State) (x : PerPort Port) : (s.setPorts x).faults = s.faults := rfl
@[simp] theorem setPorts_store (s : State) (x : PerPort Port) : (s.setPorts x).store = s.store := rfl
@[simp] theorem setPorts_image (s : State) (x : PerPort Port) : (s.setPorts x).image = s.image := rfl
@[simp] theorem setPorts_maint (s : State) (x : PerPort Port) : (s.setPorts x).maint = s.maint := rfl
@[simp] theorem setPorts_choices (s : State) (x : PerPort Port) : (s.setPorts x).choices = s.choices := rfl
@[simp] theorem setPorts_pending (s : State) (x : PerPort Port) : (s.setPorts x).pending = s.pending := rfl

@[simp] theorem setBindings_clock (s : State) (x : PerStation (Option PortId)) : (s.setBindings x).clock = s.clock := rfl
@[simp] theorem setBindings_inputs (s : State) (x : PerStation (Option PortId)) : (s.setBindings x).inputs = s.inputs := rfl
@[simp] theorem setBindings_passages (s : State) (x : PerStation (Option PortId)) : (s.setBindings x).passages = s.passages := rfl
@[simp] theorem setBindings_nextPassage (s : State) (x : PerStation (Option PortId)) : (s.setBindings x).nextPassage = s.nextPassage := rfl
@[simp] theorem setBindings_heads (s : State) (x : PerStation (Option PortId)) : (s.setBindings x).heads = s.heads := rfl
@[simp] theorem setBindings_table (s : State) (x : PerStation (Option PortId)) : (s.setBindings x).table = s.table := rfl
@[simp] theorem setBindings_stations (s : State) (x : PerStation (Option PortId)) : (s.setBindings x).stations = s.stations := rfl
@[simp] theorem setBindings_units (s : State) (x : PerStation (Option PortId)) : (s.setBindings x).units = s.units := rfl
@[simp] theorem setBindings_inhibit (s : State) (x : PerStation (Option PortId)) : (s.setBindings x).inhibit = s.inhibit := rfl
@[simp] theorem setBindings_triggers (s : State) (x : PerStation (Option PortId)) : (s.setBindings x).triggers = s.triggers := rfl
@[simp] theorem setBindings_outputs (s : State) (x : PerStation (Option PortId)) : (s.setBindings x).outputs = s.outputs := rfl
@[simp] theorem setBindings_tracks (s : State) (x : PerStation (Option PortId)) : (s.setBindings x).tracks = s.tracks := rfl
@[simp] theorem setBindings_unitSnapshot (s : State) (x : PerStation (Option PortId)) : (s.setBindings x).unitSnapshot = s.unitSnapshot := rfl
@[simp] theorem setBindings_ports (s : State) (x : PerStation (Option PortId)) : (s.setBindings x).ports = s.ports := rfl
@[simp] theorem setBindings_bindings (s : State) (x : PerStation (Option PortId)) : (s.setBindings x).bindings = x := rfl
@[simp] theorem setBindings_faults (s : State) (x : PerStation (Option PortId)) : (s.setBindings x).faults = s.faults := rfl
@[simp] theorem setBindings_store (s : State) (x : PerStation (Option PortId)) : (s.setBindings x).store = s.store := rfl
@[simp] theorem setBindings_image (s : State) (x : PerStation (Option PortId)) : (s.setBindings x).image = s.image := rfl
@[simp] theorem setBindings_maint (s : State) (x : PerStation (Option PortId)) : (s.setBindings x).maint = s.maint := rfl
@[simp] theorem setBindings_choices (s : State) (x : PerStation (Option PortId)) : (s.setBindings x).choices = s.choices := rfl
@[simp] theorem setBindings_pending (s : State) (x : PerStation (Option PortId)) : (s.setBindings x).pending = s.pending := rfl

@[simp] theorem setFaults_clock (s : State) (x : FaultCapture) : (s.setFaults x).clock = s.clock := rfl
@[simp] theorem setFaults_inputs (s : State) (x : FaultCapture) : (s.setFaults x).inputs = s.inputs := rfl
@[simp] theorem setFaults_passages (s : State) (x : FaultCapture) : (s.setFaults x).passages = s.passages := rfl
@[simp] theorem setFaults_nextPassage (s : State) (x : FaultCapture) : (s.setFaults x).nextPassage = s.nextPassage := rfl
@[simp] theorem setFaults_heads (s : State) (x : FaultCapture) : (s.setFaults x).heads = s.heads := rfl
@[simp] theorem setFaults_table (s : State) (x : FaultCapture) : (s.setFaults x).table = s.table := rfl
@[simp] theorem setFaults_stations (s : State) (x : FaultCapture) : (s.setFaults x).stations = s.stations := rfl
@[simp] theorem setFaults_units (s : State) (x : FaultCapture) : (s.setFaults x).units = s.units := rfl
@[simp] theorem setFaults_inhibit (s : State) (x : FaultCapture) : (s.setFaults x).inhibit = s.inhibit := rfl
@[simp] theorem setFaults_triggers (s : State) (x : FaultCapture) : (s.setFaults x).triggers = s.triggers := rfl
@[simp] theorem setFaults_outputs (s : State) (x : FaultCapture) : (s.setFaults x).outputs = s.outputs := rfl
@[simp] theorem setFaults_tracks (s : State) (x : FaultCapture) : (s.setFaults x).tracks = s.tracks := rfl
@[simp] theorem setFaults_unitSnapshot (s : State) (x : FaultCapture) : (s.setFaults x).unitSnapshot = s.unitSnapshot := rfl
@[simp] theorem setFaults_ports (s : State) (x : FaultCapture) : (s.setFaults x).ports = s.ports := rfl
@[simp] theorem setFaults_bindings (s : State) (x : FaultCapture) : (s.setFaults x).bindings = s.bindings := rfl
@[simp] theorem setFaults_faults (s : State) (x : FaultCapture) : (s.setFaults x).faults = x := rfl
@[simp] theorem setFaults_store (s : State) (x : FaultCapture) : (s.setFaults x).store = s.store := rfl
@[simp] theorem setFaults_image (s : State) (x : FaultCapture) : (s.setFaults x).image = s.image := rfl
@[simp] theorem setFaults_maint (s : State) (x : FaultCapture) : (s.setFaults x).maint = s.maint := rfl
@[simp] theorem setFaults_choices (s : State) (x : FaultCapture) : (s.setFaults x).choices = s.choices := rfl
@[simp] theorem setFaults_pending (s : State) (x : FaultCapture) : (s.setFaults x).pending = s.pending := rfl

@[simp] theorem setStore_clock (s : State) (x : Memory) : (s.setStore x).clock = s.clock := rfl
@[simp] theorem setStore_inputs (s : State) (x : Memory) : (s.setStore x).inputs = s.inputs := rfl
@[simp] theorem setStore_passages (s : State) (x : Memory) : (s.setStore x).passages = s.passages := rfl
@[simp] theorem setStore_nextPassage (s : State) (x : Memory) : (s.setStore x).nextPassage = s.nextPassage := rfl
@[simp] theorem setStore_heads (s : State) (x : Memory) : (s.setStore x).heads = s.heads := rfl
@[simp] theorem setStore_table (s : State) (x : Memory) : (s.setStore x).table = s.table := rfl
@[simp] theorem setStore_stations (s : State) (x : Memory) : (s.setStore x).stations = s.stations := rfl
@[simp] theorem setStore_units (s : State) (x : Memory) : (s.setStore x).units = s.units := rfl
@[simp] theorem setStore_inhibit (s : State) (x : Memory) : (s.setStore x).inhibit = s.inhibit := rfl
@[simp] theorem setStore_triggers (s : State) (x : Memory) : (s.setStore x).triggers = s.triggers := rfl
@[simp] theorem setStore_outputs (s : State) (x : Memory) : (s.setStore x).outputs = s.outputs := rfl
@[simp] theorem setStore_tracks (s : State) (x : Memory) : (s.setStore x).tracks = s.tracks := rfl
@[simp] theorem setStore_unitSnapshot (s : State) (x : Memory) : (s.setStore x).unitSnapshot = s.unitSnapshot := rfl
@[simp] theorem setStore_ports (s : State) (x : Memory) : (s.setStore x).ports = s.ports := rfl
@[simp] theorem setStore_bindings (s : State) (x : Memory) : (s.setStore x).bindings = s.bindings := rfl
@[simp] theorem setStore_faults (s : State) (x : Memory) : (s.setStore x).faults = s.faults := rfl
@[simp] theorem setStore_store (s : State) (x : Memory) : (s.setStore x).store = x := rfl
@[simp] theorem setStore_image (s : State) (x : Memory) : (s.setStore x).image = s.image := rfl
@[simp] theorem setStore_maint (s : State) (x : Memory) : (s.setStore x).maint = s.maint := rfl
@[simp] theorem setStore_choices (s : State) (x : Memory) : (s.setStore x).choices = s.choices := rfl
@[simp] theorem setStore_pending (s : State) (x : Memory) : (s.setStore x).pending = s.pending := rfl

@[simp] theorem setImage_clock (s : State) (x : Memory) : (s.setImage x).clock = s.clock := rfl
@[simp] theorem setImage_inputs (s : State) (x : Memory) : (s.setImage x).inputs = s.inputs := rfl
@[simp] theorem setImage_passages (s : State) (x : Memory) : (s.setImage x).passages = s.passages := rfl
@[simp] theorem setImage_nextPassage (s : State) (x : Memory) : (s.setImage x).nextPassage = s.nextPassage := rfl
@[simp] theorem setImage_heads (s : State) (x : Memory) : (s.setImage x).heads = s.heads := rfl
@[simp] theorem setImage_table (s : State) (x : Memory) : (s.setImage x).table = s.table := rfl
@[simp] theorem setImage_stations (s : State) (x : Memory) : (s.setImage x).stations = s.stations := rfl
@[simp] theorem setImage_units (s : State) (x : Memory) : (s.setImage x).units = s.units := rfl
@[simp] theorem setImage_inhibit (s : State) (x : Memory) : (s.setImage x).inhibit = s.inhibit := rfl
@[simp] theorem setImage_triggers (s : State) (x : Memory) : (s.setImage x).triggers = s.triggers := rfl
@[simp] theorem setImage_outputs (s : State) (x : Memory) : (s.setImage x).outputs = s.outputs := rfl
@[simp] theorem setImage_tracks (s : State) (x : Memory) : (s.setImage x).tracks = s.tracks := rfl
@[simp] theorem setImage_unitSnapshot (s : State) (x : Memory) : (s.setImage x).unitSnapshot = s.unitSnapshot := rfl
@[simp] theorem setImage_ports (s : State) (x : Memory) : (s.setImage x).ports = s.ports := rfl
@[simp] theorem setImage_bindings (s : State) (x : Memory) : (s.setImage x).bindings = s.bindings := rfl
@[simp] theorem setImage_faults (s : State) (x : Memory) : (s.setImage x).faults = s.faults := rfl
@[simp] theorem setImage_store (s : State) (x : Memory) : (s.setImage x).store = s.store := rfl
@[simp] theorem setImage_image (s : State) (x : Memory) : (s.setImage x).image = x := rfl
@[simp] theorem setImage_maint (s : State) (x : Memory) : (s.setImage x).maint = s.maint := rfl
@[simp] theorem setImage_choices (s : State) (x : Memory) : (s.setImage x).choices = s.choices := rfl
@[simp] theorem setImage_pending (s : State) (x : Memory) : (s.setImage x).pending = s.pending := rfl

@[simp] theorem setMaint_clock (s : State) (x : Maintenance) : (s.setMaint x).clock = s.clock := rfl
@[simp] theorem setMaint_inputs (s : State) (x : Maintenance) : (s.setMaint x).inputs = s.inputs := rfl
@[simp] theorem setMaint_passages (s : State) (x : Maintenance) : (s.setMaint x).passages = s.passages := rfl
@[simp] theorem setMaint_nextPassage (s : State) (x : Maintenance) : (s.setMaint x).nextPassage = s.nextPassage := rfl
@[simp] theorem setMaint_heads (s : State) (x : Maintenance) : (s.setMaint x).heads = s.heads := rfl
@[simp] theorem setMaint_table (s : State) (x : Maintenance) : (s.setMaint x).table = s.table := rfl
@[simp] theorem setMaint_stations (s : State) (x : Maintenance) : (s.setMaint x).stations = s.stations := rfl
@[simp] theorem setMaint_units (s : State) (x : Maintenance) : (s.setMaint x).units = s.units := rfl
@[simp] theorem setMaint_inhibit (s : State) (x : Maintenance) : (s.setMaint x).inhibit = s.inhibit := rfl
@[simp] theorem setMaint_triggers (s : State) (x : Maintenance) : (s.setMaint x).triggers = s.triggers := rfl
@[simp] theorem setMaint_outputs (s : State) (x : Maintenance) : (s.setMaint x).outputs = s.outputs := rfl
@[simp] theorem setMaint_tracks (s : State) (x : Maintenance) : (s.setMaint x).tracks = s.tracks := rfl
@[simp] theorem setMaint_unitSnapshot (s : State) (x : Maintenance) : (s.setMaint x).unitSnapshot = s.unitSnapshot := rfl
@[simp] theorem setMaint_ports (s : State) (x : Maintenance) : (s.setMaint x).ports = s.ports := rfl
@[simp] theorem setMaint_bindings (s : State) (x : Maintenance) : (s.setMaint x).bindings = s.bindings := rfl
@[simp] theorem setMaint_faults (s : State) (x : Maintenance) : (s.setMaint x).faults = s.faults := rfl
@[simp] theorem setMaint_store (s : State) (x : Maintenance) : (s.setMaint x).store = s.store := rfl
@[simp] theorem setMaint_image (s : State) (x : Maintenance) : (s.setMaint x).image = s.image := rfl
@[simp] theorem setMaint_maint (s : State) (x : Maintenance) : (s.setMaint x).maint = x := rfl
@[simp] theorem setMaint_choices (s : State) (x : Maintenance) : (s.setMaint x).choices = s.choices := rfl
@[simp] theorem setMaint_pending (s : State) (x : Maintenance) : (s.setMaint x).pending = s.pending := rfl

@[simp] theorem setChoices_clock (s : State) (x : Nat) : (s.setChoices x).clock = s.clock := rfl
@[simp] theorem setChoices_inputs (s : State) (x : Nat) : (s.setChoices x).inputs = s.inputs := rfl
@[simp] theorem setChoices_passages (s : State) (x : Nat) : (s.setChoices x).passages = s.passages := rfl
@[simp] theorem setChoices_nextPassage (s : State) (x : Nat) : (s.setChoices x).nextPassage = s.nextPassage := rfl
@[simp] theorem setChoices_heads (s : State) (x : Nat) : (s.setChoices x).heads = s.heads := rfl
@[simp] theorem setChoices_table (s : State) (x : Nat) : (s.setChoices x).table = s.table := rfl
@[simp] theorem setChoices_stations (s : State) (x : Nat) : (s.setChoices x).stations = s.stations := rfl
@[simp] theorem setChoices_units (s : State) (x : Nat) : (s.setChoices x).units = s.units := rfl
@[simp] theorem setChoices_inhibit (s : State) (x : Nat) : (s.setChoices x).inhibit = s.inhibit := rfl
@[simp] theorem setChoices_triggers (s : State) (x : Nat) : (s.setChoices x).triggers = s.triggers := rfl
@[simp] theorem setChoices_outputs (s : State) (x : Nat) : (s.setChoices x).outputs = s.outputs := rfl
@[simp] theorem setChoices_tracks (s : State) (x : Nat) : (s.setChoices x).tracks = s.tracks := rfl
@[simp] theorem setChoices_unitSnapshot (s : State) (x : Nat) : (s.setChoices x).unitSnapshot = s.unitSnapshot := rfl
@[simp] theorem setChoices_ports (s : State) (x : Nat) : (s.setChoices x).ports = s.ports := rfl
@[simp] theorem setChoices_bindings (s : State) (x : Nat) : (s.setChoices x).bindings = s.bindings := rfl
@[simp] theorem setChoices_faults (s : State) (x : Nat) : (s.setChoices x).faults = s.faults := rfl
@[simp] theorem setChoices_store (s : State) (x : Nat) : (s.setChoices x).store = s.store := rfl
@[simp] theorem setChoices_image (s : State) (x : Nat) : (s.setChoices x).image = s.image := rfl
@[simp] theorem setChoices_maint (s : State) (x : Nat) : (s.setChoices x).maint = s.maint := rfl
@[simp] theorem setChoices_choices (s : State) (x : Nat) : (s.setChoices x).choices = x := rfl
@[simp] theorem setChoices_pending (s : State) (x : Nat) : (s.setChoices x).pending = s.pending := rfl

@[simp] theorem setPending_clock (s : State) (x : List Instr) : (s.setPending x).clock = s.clock := rfl
@[simp] theorem setPending_inputs (s : State) (x : List Instr) : (s.setPending x).inputs = s.inputs := rfl
@[simp] theorem setPending_passages (s : State) (x : List Instr) : (s.setPending x).passages = s.passages := rfl
@[simp] theorem setPending_nextPassage (s : State) (x : List Instr) : (s.setPending x).nextPassage = s.nextPassage := rfl
@[simp] theorem setPending_heads (s : State) (x : List Instr) : (s.setPending x).heads = s.heads := rfl
@[simp] theorem setPending_table (s : State) (x : List Instr) : (s.setPending x).table = s.table := rfl
@[simp] theorem setPending_stations (s : State) (x : List Instr) : (s.setPending x).stations = s.stations := rfl
@[simp] theorem setPending_units (s : State) (x : List Instr) : (s.setPending x).units = s.units := rfl
@[simp] theorem setPending_inhibit (s : State) (x : List Instr) : (s.setPending x).inhibit = s.inhibit := rfl
@[simp] theorem setPending_triggers (s : State) (x : List Instr) : (s.setPending x).triggers = s.triggers := rfl
@[simp] theorem setPending_outputs (s : State) (x : List Instr) : (s.setPending x).outputs = s.outputs := rfl
@[simp] theorem setPending_tracks (s : State) (x : List Instr) : (s.setPending x).tracks = s.tracks := rfl
@[simp] theorem setPending_unitSnapshot (s : State) (x : List Instr) : (s.setPending x).unitSnapshot = s.unitSnapshot := rfl
@[simp] theorem setPending_ports (s : State) (x : List Instr) : (s.setPending x).ports = s.ports := rfl
@[simp] theorem setPending_bindings (s : State) (x : List Instr) : (s.setPending x).bindings = s.bindings := rfl
@[simp] theorem setPending_faults (s : State) (x : List Instr) : (s.setPending x).faults = s.faults := rfl
@[simp] theorem setPending_store (s : State) (x : List Instr) : (s.setPending x).store = s.store := rfl
@[simp] theorem setPending_image (s : State) (x : List Instr) : (s.setPending x).image = s.image := rfl
@[simp] theorem setPending_maint (s : State) (x : List Instr) : (s.setPending x).maint = s.maint := rfl
@[simp] theorem setPending_choices (s : State) (x : List Instr) : (s.setPending x).choices = s.choices := rfl
@[simp] theorem setPending_pending (s : State) (x : List Instr) : (s.setPending x).pending = x := rfl

end Sys2Proof.Machine
end

