-- ==== Sys2Proof/Laws/Frames.lean ====
section
/-! SUPPORT. What each shared operation may change, said once for each, as a footprint of Safety.lean; and the general law that lets a
footprint or an invariant pass through a fold and through events taken in an open order. -/

namespace Sys2Proof.Machine

/-! ### Folds and open orders -/

/-- A relation that is reflexive and transitive passes through a fold. -/
theorem foldl_keeps {α : Type} {R : State → State → Prop} (hr : ∀ s, R s s) (ht : ∀ s t u, R s t → R t u → R s u)
    {f : State → α → State} (h : ∀ s a, R s (f s a)) (l : List α) (s : State) : R s (l.foldl f s) := by
  induction l generalizing s with
  | nil => exact hr s
  | cons a l ih => exact ht _ _ _ (h s a) (ih (f s a))

/-- A relation that is reflexive and transitive passes through events taken in an order the manual leaves open. -/
theorem inAnyOrder_keeps {R : State → State → Prop} (hr : ∀ s, R s s) (ht : ∀ s t u, R s t → R t u → R s u)
    (hc : ∀ s n, R s (s.setChoices n)) (fuel : Nat) (acts : List (State → State)) (h : ∀ a ∈ acts, ∀ s, R s (a s)) (s : State) :
    R s (inAnyOrder fuel acts s) := by
  induction fuel generalizing acts s with
  | zero => cases acts <;> exact hr s
  | succ n ih =>
    match acts with
    | [] => exact hr s
    | [a] => exact h a (by simp) s
    | a :: b :: rest =>
      have hget : ∀ k s, R s ((a :: b :: rest).getD k id s) := by
        intro k s
        rw [List.getD_eq_getElem?_getD]
        cases hk : (a :: b :: rest)[k]? with
        | none => exact hr s
        | some x => exact h x (List.mem_of_getElem? hk) s
      exact ht _ _ _ (ht _ _ _ (hc s _) (hget _ _)) (ih _ (fun x hx => h x (List.mem_of_mem_eraseIdx hx)) _)

theorem takeAll_keeps {R : State → State → Prop} (hr : ∀ s, R s s) (ht : ∀ s t u, R s t → R t u → R s u)
    (hc : ∀ s n, R s (s.setChoices n)) (acts : List (State → State)) (h : ∀ a ∈ acts, ∀ s, R s (a s)) (s : State) :
    R s (s.takeAll acts) := inAnyOrder_keeps hr ht hc _ acts h s

/-! ### The footprints compose -/

theorem OnlyModes.refl (s : State) : OnlyModes s s := by repeat' constructor
theorem OnlyDetectors.refl (s : State) : OnlyDetectors s s := by repeat' constructor
theorem OnlyEdges.refl (s : State) : OnlyEdges s s := by repeat' constructor
theorem OnlyRemovals.refl (s : State) : OnlyRemovals s s := by repeat' constructor
theorem OnlyRecords.refl (s : State) : OnlyRecords s s := by repeat' constructor
theorem OnlyPorts.refl (s : State) : OnlyPorts s s := by repeat' constructor
theorem OnlyReports.refl (s : State) : OnlyReports s s := by repeat' constructor

theorem OnlyModes.trans {s t u : State} (h : OnlyModes s t) (k : OnlyModes t u) : OnlyModes s u :=
  { clock := k.clock.trans h.clock, inhibit := k.inhibit.trans h.inhibit, stations := k.stations.trans h.stations, outputs := k.outputs.trans h.outputs, bindings := k.bindings.trans h.bindings, store := k.store.trans h.store, image := k.image.trans h.image, maint := k.maint.trans h.maint, pending := k.pending.trans h.pending }

theorem OnlyDetectors.trans {s t u : State} (h : OnlyDetectors s t) (k : OnlyDetectors t u) : OnlyDetectors s u :=
  { toOnlyModes := h.toOnlyModes.trans k.toOnlyModes, tracks := k.tracks.trans h.tracks, unitSnapshot := k.unitSnapshot.trans h.unitSnapshot, choices := k.choices.trans h.choices }

theorem OnlyEdges.trans {s t u : State} (h : OnlyEdges s t) (k : OnlyEdges t u) : OnlyEdges s u :=
  { toOnlyDetectors := h.toOnlyDetectors.trans k.toOnlyDetectors, inputs := k.inputs.trans h.inputs }

theorem OnlyRemovals.trans {s t u : State} (h : OnlyRemovals s t) (k : OnlyRemovals t u) : OnlyRemovals s u :=
  { toOnlyEdges := h.toOnlyEdges.trans k.toOnlyEdges, passages := k.passages.trans h.passages, nextPassage := k.nextPassage.trans h.nextPassage, heads := k.heads.trans h.heads, faults := k.faults.trans h.faults }

theorem OnlyRecords.trans {s t u : State} (h : OnlyRecords s t) (k : OnlyRecords t u) : OnlyRecords s u :=
  { toOnlyRemovals := h.toOnlyRemovals.trans k.toOnlyRemovals, triggers := k.triggers.trans h.triggers, units := k.units.trans h.units }

theorem OnlyPorts.trans {s t u : State} (h : OnlyPorts s t) (k : OnlyPorts t u) : OnlyPorts s u :=
  { toOnlyRecords := h.toOnlyRecords.trans k.toOnlyRecords, table := k.table.trans h.table }

theorem OnlyReports.trans {s t u : State} (h : OnlyReports s t) (k : OnlyReports t u) : OnlyReports s u :=
  { toOnlyEdges := h.toOnlyEdges.trans k.toOnlyEdges, passages := k.passages.trans h.passages, nextPassage := k.nextPassage.trans h.nextPassage, heads := k.heads.trans h.heads, table := k.table.trans h.table, units := k.units.trans h.units, triggers := k.triggers.trans h.triggers }

theorem OnlyPorts.reports {s t : State} (h : OnlyPorts s t) : OnlyReports s t :=
  { toOnlyEdges := h.toOnlyEdges, passages := h.passages, nextPassage := h.nextPassage, heads := h.heads, table := h.table,
    units := h.units, triggers := h.triggers }

theorem OnlyPorts.records {s t : State} (h : OnlyPorts s t) : OnlyRecords s t := h.toOnlyRecords
theorem OnlyRecords.removals {s t : State} (h : OnlyRecords s t) : OnlyRemovals s t := h.toOnlyRemovals
theorem OnlyRemovals.edges {s t : State} (h : OnlyRemovals s t) : OnlyEdges s t := h.toOnlyEdges
theorem OnlyReports.edges {s t : State} (h : OnlyReports s t) : OnlyEdges s t := h.toOnlyEdges
theorem OnlyRecords.edges {s t : State} (h : OnlyRecords s t) : OnlyEdges s t := h.toOnlyEdges
theorem OnlyPorts.edges {s t : State} (h : OnlyPorts s t) : OnlyEdges s t := h.toOnlyEdges
theorem OnlyEdges.detectors {s t : State} (h : OnlyEdges s t) : OnlyDetectors s t := h.toOnlyDetectors
theorem OnlyDetectors.modes {s t : State} (h : OnlyDetectors s t) : OnlyModes s t := h.toOnlyModes

/-! ### Notices, faults and records -/

theorem offer_only (s : State) (named : PortId → Port → Bool) (n : Notice) : OnlyPorts s (s.offer named n) := by repeat' constructor

theorem offerByTrack_only (s : State) (c : NoticeClass) (t : Track) (n : Notice) : OnlyPorts s (s.offerByTrack c t n) := by repeat' constructor

theorem offerToHolder_only (s : State) (c : NoticeClass) (p : Option PortId) (n : Notice) : OnlyPorts s (s.offerToHolder c p n) := by repeat' constructor

theorem raise_only (s : State) (f : RaisedFault) : OnlyReports s (s.raise f) := by repeat' constructor

theorem updateRecord_only (s : State) (n : Nat) (f : HeadRecord → HeadRecord) : OnlyRecords s (s.updateRecord n f) := by repeat' constructor

theorem offerRecordFinal_only (s : State) (n : Nat) : OnlyRecords s (s.offerRecordFinal n) := by
  unfold State.offerRecordFinal
  split
  · exact .refl s
  · exact (offerByTrack_only ..).records

theorem finishRecord_only (s : State) (n : Nat) (x : RecordState) : OnlyRecords s (s.finishRecord n x) :=
  (updateRecord_only ..).trans (offerRecordFinal_only ..)

theorem testDone_only (s : State) (n : Nat) : OnlyRecords s (s.testDone n) := by
  unfold State.testDone
  split
  · exact .refl s
  · split
    · exact finishRecord_only ..
    · exact .refl s

theorem updateEntry_only (s : State) (n : Nat) (st : Station) (p : Option PortId) (f : StationEntry → StationEntry) :
    OnlyRecords s (s.updateEntry n st p f) := by
  unfold State.updateEntry
  split
  · exact .refl s
  · split
    · exact .refl s
    · split
      · dsimp only
        split
        · exact (updateRecord_only ..).trans (offerToHolder_only ..).records
        · exact updateRecord_only ..
      · exact .refl s

theorem cancelStation_only (s : State) (gone : List Entry) (lost : Option PortId) (d : Bool) (n : Nat) (st : Station) :
    OnlyRecords s (s.cancelStation gone lost d n st) := by
  unfold State.cancelStation
  dsimp only
  split
  · exact .refl s
  · split
    · exact (updateEntry_only ..).trans (testDone_only ..)
    · exact updateEntry_only ..

/-- A removal without firing leaves exactly the entries not selected in the trigger list, and touches nothing but the list, the bookings,
the records and the ports (R129). -/
theorem removeEntries_only (s : State) (sel : Entry → Bool) (lost : Option PortId) (d : Bool) :
    OnlyRemovals s (s.removeEntries sel lost d) := by
  unfold State.removeEntries
  refine OnlyRemovals.trans (t := (s.setTriggers (s.triggers.filter fun e => !sel e)).setUnits
    (releaseBookings (s.triggers.filter sel) s.units)) (by repeat' constructor) (OnlyRecords.removals ?_)
  exact foldl_keeps OnlyRecords.refl (fun _ _ _ => OnlyRecords.trans)
    (fun s n => foldl_keeps OnlyRecords.refl (fun _ _ _ => OnlyRecords.trans)
      (fun s st => cancelStation_only s _ lost d n st) _ s) _ _

/-- The trigger list after a removal (R129): the entries not selected, in their order. -/
theorem removeEntries_triggers (s : State) (sel : Entry → Bool) (lost : Option PortId) (d : Bool) :
    (s.removeEntries sel lost d).triggers = s.triggers.filter fun e => !sel e := by
  unfold State.removeEntries
  rw [OnlyRecords.triggers (s := (s.setTriggers (s.triggers.filter fun e => !sel e)).setUnits
    (releaseBookings (s.triggers.filter sel) s.units))]
  · rfl
  · exact foldl_keeps OnlyRecords.refl (fun _ _ _ => OnlyRecords.trans)
      (fun s n => foldl_keeps OnlyRecords.refl (fun _ _ _ => OnlyRecords.trans)
        (fun s st => cancelStation_only s _ lost d n st) _ s) _ _

/-- The flash units after a removal (R111): the removed entries' bookings are released. -/
theorem removeEntries_units (s : State) (sel : Entry → Bool) (lost : Option PortId) (d : Bool) :
    (s.removeEntries sel lost d).units = releaseBookings (s.triggers.filter sel) s.units := by
  unfold State.removeEntries
  rw [OnlyRecords.units (s := (s.setTriggers (s.triggers.filter fun e => !sel e)).setUnits
    (releaseBookings (s.triggers.filter sel) s.units))]
  · rfl
  · exact foldl_keeps OnlyRecords.refl (fun _ _ _ => OnlyRecords.trans)
      (fun s n => foldl_keeps OnlyRecords.refl (fun _ _ _ => OnlyRecords.trans)
        (fun s st => cancelStation_only s _ lost d n st) _ s) _ _

/-! ### Passages, heads and plans -/

theorem closePassage_only (s : State) (t : Track) (p : Passage) : OnlyEdges s (s.closePassage t p) := by
  unfold State.closePassage
  dsimp only
  have h : OnlyEdges s (if p.flushed.leading = p.flushed.trailing then s
      else s.raise { kind := .axleMismatch, track := some t, item := .none, time := s.now }) := by
    split
    · exact .refl s
    · exact (raise_only ..).edges
  generalize (if p.flushed.leading = p.flushed.trailing then s
      else s.raise { kind := .axleMismatch, track := some t, item := .none, time := s.now }) = u at h ⊢
  refine h.trans ((offerByTrack_only u .passage t (passageClosedNotice t p.flushed u.now)).edges.trans ?_)
  generalize u.offerByTrack .passage t (passageClosedNotice t p.flushed u.now) = v
  repeat' constructor

theorem testClose_only (s : State) (t : Track) : OnlyEdges s (s.testClose t) := by
  unfold State.testClose
  split
  · exact .refl s
  · split
    · exact closePassage_only ..
    · exact .refl s

theorem leaveWaiting_only (s : State) (t : Track) (n : Nat) (f : HeadRecord → HeadRecord) : OnlyEdges s (s.leaveWaiting t n f) :=
  ((updateRecord_only ..).trans (testDone_only ..)).edges.trans (testClose_only ..)

theorem offerFar_only (s : State) (t : Track) (b : Beam) (x : Time) : OnlyEdges s (s.offerFar t b x) := by
  unfold State.offerFar
  split
  · exact leaveWaiting_only ..
  · exact (raise_only ..).edges

theorem settleOverdue_only (s : State) (t : Track) : OnlyEdges s (s.settleOverdue t) :=
  foldl_keeps OnlyEdges.refl (fun _ _ _ => OnlyEdges.trans) (fun s n => leaveWaiting_only s t n _) _ s

theorem confirmationExpire_only (s : State) (r : HeadRecord) : OnlyEdges s (s.confirmationExpire r) := by
  unfold State.confirmationExpire
  split
  · exact (updateRecord_only ..).edges
  · exact leaveWaiting_only ..

theorem confirmationDue_only (s : State) (n : Nat) : OnlyEdges s (s.confirmationDue n) := by
  unfold State.confirmationDue
  split
  · exact .refl s
  · split
    · exact confirmationExpire_only ..
    · exact .refl s

theorem quietExpire_only (s : State) (t : Track) : OnlyEdges s (s.quietExpire t) := by
  unfold State.quietExpire
  split
  · exact .refl s
  · split
    · exact OnlyEdges.trans (by repeat' constructor) (testClose_only ..)
    · exact .refl s

theorem applyPlan_only (s : State) (t : Track) (n : Nat) (st : Station) (c : StationConfig) (p : StationPlan) :
    OnlyEdges s (s.applyPlan t n st c p) := by
  unfold State.applyPlan
  dsimp only
  have h : OnlyEdges s (if p.camera = .pending then s.reserve n st c p else s) := by
    split <;> repeat' constructor
  have h' := h.trans (updateRecord_only (if p.camera = .pending then s.reserve n st c p else s) n
    (fun r => { r with entries := r.entries ++ [p.entry st] })).edges
  generalize (if p.camera = .pending then s.reserve n st c p else s) = u at h h' ⊢
  split
  · exact h'.trans (offerToHolder_only ..).edges
  · split
    · exact h'.trans (raise_only ..).edges
    · exact h'

theorem planStation_only (t : Track) (snap : TrackSnapshot) (dir : Direction) (v : Nat) (x : Time) (n : Nat) (s : State) (st : Station) :
    OnlyEdges s (State.planStation t snap dir v x n s st) := by
  unfold State.planStation
  split
  · exact .refl s
  · exact applyPlan_only ..

theorem planHead_only (s : State) (t : Track) (n : Nat) (a b : Time) : OnlyEdges s (s.planHead t n a b) := by
  unfold State.planHead
  dsimp only
  split
  · exact ((updateRecord_only ..).edges.trans
      (foldl_keeps OnlyEdges.refl (fun _ _ _ => OnlyEdges.trans) (fun s st => planStation_only _ _ _ _ _ _ s st) _ _)).trans
      (confirmationDue_only ..)
  · exact ((updateRecord_only ..).trans (finishRecord_only ..)).edges

theorem setHead_only (s : State) (t : Track) (b : Beam) (h : HeadUnit) : OnlyEdges s (s.setHead t b h) := by repeat' constructor

theorem blockRecord_only (s : State) (n : Nat) : OnlyEdges s (s.blockRecord n) := by
  unfold State.blockRecord
  split
  · exact (finishRecord_only ..).edges
  · exact .refl s

theorem enterBlocked_only (s : State) (t : Track) (b : Beam) (h : Head) : OnlyEdges s (s.enterBlocked t b h) := by
  unfold State.enterBlocked
  dsimp only
  refine OnlyEdges.trans ?_ (testClose_only ..)
  refine OnlyEdges.trans (t := (s.setHeadState t b .blocked).raise
    { kind := .headBlocked, track := some t, item := .input (.beam b), time := (s.setHeadState t b .blocked).now }) (by repeat' constructor) ?_
  split
  · split
    · exact .refl _
    · exact blockRecord_only ..
  · exact settleOverdue_only ..
  · exact .refl _

theorem wMaxExpire_only (s : State) (t : Track) (b : Beam) : OnlyEdges s (s.wMaxExpire t b) := by
  unfold State.wMaxExpire
  split
  · split
    · exact enterBlocked_only ..
    · exact .refl s
  · split
    · exact setHead_only ..
    · exact .refl s
  · exact .refl s

theorem restoreBeam_only (s : State) (t : Track) (b : Beam) : OnlyEdges s (s.restoreBeam t b) :=
  (setHead_only ..).trans (testClose_only ..)

theorem handOver_only (s : State) (t : Track) (h : Head) (x : Time) : OnlyEdges s (s.handOver t h x) := by
  unfold State.handOver
  split
  · exact .refl s
  · split
    · exact (updateRecord_only ..).edges.trans (planHead_only ..)
    · exact .refl s

theorem closeHead_only (s : State) (t : Track) (b : Beam) (h : Head) (x : Time) : OnlyEdges s (s.closeHead t b h x) := by
  unfold State.closeHead
  dsimp only
  refine OnlyEdges.trans (OnlyEdges.trans ?_ (setHead_only ..)) (testClose_only ..)
  split
  · exact handOver_only ..
  · exact (offerFar_only ..).trans (settleOverdue_only ..)
  · exact .refl s

theorem windowExpire_only (s : State) (t : Track) (b : Beam) : OnlyEdges s (s.windowExpire t b) := by
  unfold State.windowExpire
  split
  · split
    · exact closeHead_only ..
    · exact .refl s
  · exact .refl s

theorem allocate_only {s u : State} {t : Track} {p : Passage} {x : Time} {n : Nat} (h : s.allocate t p x = some (n, u)) :
    OnlyRecords s u := by
  unfold State.allocate at h
  obtain ⟨room, _, hr⟩ := Option.map_eq_some_iff.1 h
  obtain ⟨_, rfl⟩ := Prod.mk.injEq .. ▸ hr
  repeat' constructor

theorem recordHead_only (s : State) (t : Track) (b : Beam) (h : Head) : OnlyEdges s (s.recordHead t b h) := by
  unfold State.recordHead
  split
  · exact .refl s
  · dsimp only
    split
    · rename_i ha
      exact (OnlyEdges.trans (by repeat' constructor) (allocate_only ha).edges).trans (setHead_only ..)
    · exact OnlyEdges.trans (by repeat' constructor) (raise_only ..).edges

theorem beginHead_only (s : State) (t : Track) (b : Beam) (x : Time) : OnlyEdges s (s.beginHead t b x) := by
  unfold State.beginHead
  dsimp only
  refine OnlyEdges.trans ?_ (wMaxExpire_only ..)
  split
  · exact (setHead_only ..).trans (recordHead_only ..)
  · exact setHead_only ..

theorem endStrip_only (s : State) (t : Track) (b : Beam) (h : Head) (x : Time) : OnlyEdges s (s.endStrip t b h x) :=
  (setHead_only ..).trans (windowExpire_only ..)

theorem mergeStrip_only (s : State) (t : Track) (b : Beam) (h : Head) : OnlyEdges s (s.mergeStrip t b h) := by
  unfold State.mergeStrip
  split
  · exact enterBlocked_only ..
  · dsimp only
    split
    · exact setHead_only ..
    · split
      · exact (setHead_only ..).trans (updateRecord_only ..).edges
      · exact setHead_only ..

theorem beamEdge_only (s : State) (t : Track) (b : Beam) (a : Bool) (x : Time) : OnlyEdges s (s.beamEdge t b a x) := by
  unfold State.beamEdge
  split
  · exact beginHead_only ..
  · exact endStrip_only ..
  · exact mergeStrip_only ..
  · exact restoreBeam_only ..
  · exact .refl s

theorem abandonRecord_only (s : State) (n : Nat) : OnlyEdges s (s.abandonRecord n) :=
  ((removeEntries_only ..).trans ((updateRecord_only ..).trans (finishRecord_only ..)).removals).edges

theorem reverse_only (s : State) (t : Track) (w : Wheel) : OnlyEdges s (s.reverse t w) := by
  unfold State.reverse
  dsimp only
  refine OnlyEdges.trans (OnlyEdges.trans (OnlyEdges.trans
    (t := s.updatePassage t fun p => { p.flushed with reversed := true }) (by repeat' constructor) ?_) (raise_only ..).edges) (testClose_only ..)
  exact foldl_keeps OnlyEdges.refl (fun _ _ _ => OnlyEdges.trans) (fun s n => abandonRecord_only s n) _ _

theorem openPassage_only (s : State) (t : Track) (w : Wheel) (x : Time) : OnlyEdges s (s.openPassage t w x) := by repeat' constructor

theorem takeWheelEdge_only (s : State) (t : Track) (w : Wheel) (a : Bool) (x : Time) (p : Passage) :
    OnlyEdges s (s.takeWheelEdge t w a x p) := by
  unfold State.takeWheelEdge
  dsimp only
  split
  · repeat' constructor
  · split
    · repeat' constructor
    · split
      · repeat' constructor
      · split
        · exact OnlyEdges.trans (by repeat' constructor) (reverse_only ..)
        · repeat' constructor

theorem wheelEdge_only (s : State) (t : Track) (w : Wheel) (a : Bool) (x : Time) : OnlyEdges s (s.wheelEdge t w a x) := by
  unfold State.wheelEdge
  split
  · exact .refl s
  · split
    · split
      · exact openPassage_only ..
      · exact .refl s
    · exact takeWheelEdge_only ..

theorem handEdge_only (s : State) (t : Track) (i : Input) (a : Bool) (x : Time) : OnlyEdges s (s.handEdge t i a x) := by
  unfold State.handEdge
  split
  · exact wheelEdge_only ..
  · exact beamEdge_only ..

theorem emitPinEdge_only (s : State) (t : Track) (i : Input) (a : Bool) (x : Time) : OnlyEdges s (s.emitPinEdge t i a x) := by
  unfold State.emitPinEdge
  split
  · exact .refl s
  · exact handEdge_only ..

/-! ### Conditioners -/

theorem setConditioner_only (s : State) (t : Track) (i : Input) (c : Conditioner) : OnlyDetectors s (s.setConditioner t i c) := by repeat' constructor

theorem raiseStuck_only (s : State) (t : Track) (w : Wheel) : OnlyReports s (s.raiseStuck t w) := by repeat' constructor

theorem acceptFilter_only (s : State) (t : Track) (i : Input) (a : Bool) (x : Time) : OnlyDetectors s (s.acceptFilter t i a x) := by
  unfold State.acceptFilter
  dsimp only
  split
  · exact setConditioner_only ..
  · exact (setConditioner_only ..).trans (emitPinEdge_only ..).detectors

theorem startFilter_only (s : State) (t : Track) (i : Input) (a : Bool) : OnlyDetectors s (s.startFilter t i a) := by
  unfold State.startFilter
  dsimp only
  split
  · exact acceptFilter_only ..
  · exact setConditioner_only ..

theorem takeSample_only (s : State) (t : Track) (i : Input) (high : Bool) : OnlyDetectors s (s.takeSample t i high) := by
  unfold State.takeSample
  dsimp only
  split
  · exact .refl s
  · split
    · split
      · exact (setConditioner_only ..).trans (setConditioner_only ..)
      · exact setConditioner_only ..
    · split
      · exact setConditioner_only ..
      · exact (setConditioner_only ..).trans (startFilter_only ..)

theorem rawChange_only (s : State) (t : Track) (i : Input) (high : Bool) : OnlyDetectors s (s.rawChange t i high) := by
  unfold State.rawChange
  split
  · exact takeSample_only ..
  · exact setConditioner_only ..

theorem firstSample_only (s : State) (t : Track) (i : Input) : OnlyDetectors s (s.firstSample t i) := by
  unfold State.firstSample
  split
  · exact startFilter_only ..
  · exact .refl s

theorem filterExpire_only (s : State) (t : Track) (i : Input) : OnlyDetectors s (s.filterExpire t i) := by
  unfold State.filterExpire
  dsimp only
  split
  · exact .refl s
  · split
    · split
      · exact (setConditioner_only ..).trans (acceptFilter_only ..)
      · exact (setConditioner_only ..).trans (setConditioner_only ..)
    · exact .refl s

theorem stuckExpire_only (s : State) (t : Track) (w : Wheel) : OnlyDetectors s (s.stuckExpire t w) := by
  unfold State.stuckExpire
  dsimp only
  split
  · split
    · exact (setConditioner_only ..).trans (raiseStuck_only ..).edges.detectors
    · exact setConditioner_only ..
  · exact .refl s

theorem injectionStuckExpire_only (s : State) (t : Track) (w : Wheel) : OnlyDetectors s (s.injectionStuckExpire t w) := by
  unfold State.injectionStuckExpire
  dsimp only
  split
  · split
    · exact (setConditioner_only ..).trans (raiseStuck_only ..).edges.detectors
    · exact setConditioner_only ..
  · exact .refl s

theorem applyInjected_only (s : State) (t : Track) (i : Input) (a : Bool) : OnlyDetectors s (s.applyInjected t i a) := by
  unfold State.applyInjected
  dsimp only
  split
  · exact (setConditioner_only ..).trans (handEdge_only ..).detectors
  · exact (setConditioner_only ..).trans (handEdge_only ..).detectors
  · exact setConditioner_only ..
  · exact .refl s

theorem setInjections_only (s : State) (t : Track) (q : List InjectedEdge) : OnlyModes s (s.setInjections t q) := by repeat' constructor

theorem deliverInjected_only (s : State) (t : Track) (i : Input) : OnlyModes s (s.deliverInjected t i) := by
  unfold State.deliverInjected
  dsimp only
  split
  · exact .refl s
  · exact (setInjections_only ..).trans (applyInjected_only ..).modes

theorem changeActiveLevel_only (s : State) (t : Track) (i : Input) : OnlyDetectors s (s.changeActiveLevel t i) := by
  unfold State.changeActiveLevel
  dsimp only
  have h := setConditioner_only s t i
    { s.conditioner t i with filter := none, stuckAt := none, pin := .inactive, sampleTaken := true }
  generalize s.setConditioner t i { s.conditioner t i with filter := none, stuckAt := none, pin := .inactive, sampleTaken := true } = u
    at h ⊢
  have h' : OnlyDetectors s (if (s.conditioner t i).pin = .active then u.emitPinEdge t i false u.now else u) := by
    split
    · exact h.trans (emitPinEdge_only ..).detectors
    · exact h
  generalize (if (s.conditioner t i).pin = .active then u.emitPinEdge t i false u.now else u) = v at h' ⊢
  split
  · exact h'.trans (startFilter_only ..)
  · exact h'

theorem settleActiveLevel_only (s : State) (old : PerInput Bool) (t : Track) (i : Input) :
    OnlyDetectors s (s.settleActiveLevel old t i) := by
  unfold State.settleActiveLevel
  split
  · exact .refl s
  · exact changeActiveLevel_only ..

theorem endPinStream_only (s : State) (t : Track) (i : Input) : OnlyDetectors s (s.endPinStream t i) := by
  unfold State.endPinStream
  split
  · exact (handEdge_only ..).detectors
  · exact .refl s

theorem endInjectedStream_only (s : State) (t : Track) (i : Input) : OnlyDetectors s (s.endInjectedStream t i) := by
  unfold State.endInjectedStream
  dsimp only
  refine OnlyDetectors.trans ?_ (setConditioner_only ..)
  split
  · exact (handEdge_only ..).detectors
  · exact .refl s

theorem startPinStream_only (s : State) (t : Track) (i : Input) : OnlyDetectors s (s.startPinStream t i) := by
  unfold State.startPinStream
  split
  · exact (handEdge_only ..).detectors
  · exact .refl s

/-! ### Changes of mode -/

/-- Detector events in an order the manual leaves open keep the footprint of a change of mode. -/
theorem takeAll_only (acts : List (State → State)) (h : ∀ a ∈ acts, ∀ s, OnlyModes s (a s)) (s : State) :
    OnlyModes s (s.takeAll acts) :=
  takeAll_keeps OnlyModes.refl (fun _ _ _ => OnlyModes.trans) (fun _ _ => by repeat' constructor) acts h s

/-- Events in an order the manual leaves open come in some order, each once. -/
theorem takeAll_inSomeOrder (acts : List (State → State)) (s : State) : s.InSomeOrder acts (s.takeAll acts) := by
  suffices h : ∀ n, ∀ acts : List (State → State), acts.length = n → ∀ s : State, s.InSomeOrder acts (inAnyOrder n acts s) from
    h acts.length acts rfl s
  intro n
  induction n with
  | zero =>
    intro acts hn s
    obtain rfl := List.length_eq_zero_iff.1 hn
    exact ⟨[], List.Perm.nil, rfl⟩
  | succ n ih =>
    intro acts hn s
    match acts with
    | [] => simp at hn
    | [a] => exact ⟨[(a, s.choices)], List.Perm.refl _, rfl⟩
    | a :: b :: rest =>
      simp only [inAnyOrder, State.chooseIndex]
      generalize hl : a :: b :: rest = l at hn ⊢
      have hne : l.length ≠ 0 := by omega
      generalize hk : Config.choose s.choices l.length % l.length = k
      have hk' : k < l.length := hk ▸ Nat.mod_lt _ (by omega)
      obtain ⟨o, hp, ho⟩ := ih (l.eraseIdx k) (by rw [List.length_eraseIdx_of_lt hk']; omega) (l.getD k id (s.setChoices (s.choices + 1)))
      refine ⟨(l[k], s.choices + 1) :: o, ?_, ?_⟩
      · exact (List.Perm.cons _ hp).trans (List.getElem_cons_eraseIdx_perm hk')
      · rw [ho, List.getD_eq_getElem?_getD, List.getElem?_eq_getElem hk']
        rfl

theorem leaveOut_only (s : State) (t : Track) (m : Mode) : OnlyModes s (s.leaveOut t m) := by
  unfold State.leaveOut
  dsimp only
  split
  · refine OnlyModes.trans (t := (s.adopt t).setMode t m) (by repeat' constructor) (takeAll_only _ (fun a ha s => ?_) _)
    obtain ⟨i, _, rfl⟩ := List.mem_map.1 ha
    exact (endPinStream_only ..).modes
  · repeat' constructor

theorem liveToTest_only (s : State) (t : Track) : OnlyModes s (s.liveToTest t) := by
  refine OnlyModes.trans (t := s.setMode t .test) (by repeat' constructor) (takeAll_only _ (fun a ha s => ?_) _)
  obtain ⟨i, _, rfl⟩ := List.mem_map.1 ha
  exact (endPinStream_only ..).modes

/-- Pin streams started in an order the manual leaves open keep the footprint of a change of mode. -/
theorem startPinStreams_only {α : Type} (t : Track) (l : List α) (f : α → Input) (s : State) :
    OnlyModes s (s.takeAll (l.map fun x s => s.startPinStream t (f x))) :=
  takeAll_only _ (fun a ha s => by
    obtain ⟨x, _, rfl⟩ := List.mem_map.1 ha
    exact (startPinStream_only ..).modes) s

/-- Injected streams ended in an order the manual leaves open keep the footprint of a change of mode. -/
theorem endInjectedStreams_only (t : Track) (s : State) :
    OnlyModes s (s.takeAll (Input.all.map fun i s => s.endInjectedStream t i)) :=
  takeAll_only _ (fun a ha s => by
    obtain ⟨i, _, rfl⟩ := List.mem_map.1 ha
    exact (endInjectedStream_only ..).modes) s

theorem testToLive_only (s : State) (t : Track) : OnlyModes s (s.testToLive t) := by
  unfold State.testToLive
  dsimp only
  have h : OnlyModes s ((s.setInjections t []).setMode t .live) := by repeat' constructor
  exact ((h.trans (endInjectedStreams_only t _)).trans (startPinStreams_only t Beam.all .beam _)).trans
    (startPinStreams_only t Wheel.all .wheel _)

theorem dropUnits_only (s : State) (t : Track) : OnlyModes s (s.dropUnits t) := by
  unfold State.dropUnits
  split <;> repeat' constructor

theorem removeTrackEntries_only (s : State) (t : Track) : OnlyModes s (s.removeTrackEntries t) :=
  (removeEntries_only ..).edges.detectors.modes

theorem liveToOut_only (s : State) (t : Track) : OnlyModes s (s.liveToOut t) := by
  unfold State.liveToOut
  dsimp only
  refine OnlyModes.trans (OnlyModes.trans ((removeTrackEntries_only s t).trans (u := ((s.removeTrackEntries t).dropSnapshot t).setMode t
    .out) (by repeat' constructor)) (takeAll_only _ (fun a ha s => ?_) _)) (dropUnits_only ..)
  obtain ⟨i, _, rfl⟩ := List.mem_map.1 ha
  exact (settleActiveLevel_only ..).modes

theorem testToOut_only (s : State) (t : Track) : OnlyModes s (s.testToOut t) := by
  unfold State.testToOut
  dsimp only
  have h := (setInjections_only s t []).trans (endInjectedStreams_only t (s.setInjections t []))
  generalize (s.setInjections t []).takeAll (Input.all.map fun i s => s.endInjectedStream t i) = u at h ⊢
  refine OnlyModes.trans (OnlyModes.trans ((h.trans (removeTrackEntries_only u t)).trans
    (u := ((u.removeTrackEntries t).dropSnapshot t).setMode t .out) (by repeat' constructor)) (takeAll_only _ (fun a ha s => ?_) _)) (dropUnits_only ..)
  obtain ⟨i, _, hi⟩ := List.mem_flatMap.1 ha
  simp only [List.mem_cons, List.not_mem_nil, or_false] at hi
  rcases hi with rfl | rfl
  · exact (startPinStream_only ..).modes
  · exact (settleActiveLevel_only ..).modes

/-- An accepted change of mode touches nothing beyond the footprint of a change of mode (R138). -/
theorem changeMode_only (s : State) (t : Track) (m : Mode) : OnlyModes s (s.changeMode t m) := by
  unfold State.changeMode
  split
  · exact leaveOut_only ..
  · exact leaveOut_only ..
  · exact liveToTest_only ..
  · exact testToLive_only ..
  · exact liveToOut_only ..
  · exact testToOut_only ..
  · exact .refl s

theorem startLive_only (s : State) (t : Track) : OnlyModes s (s.startLive t) := by
  unfold State.startLive
  split
  · exact leaveOut_only ..
  · exact .refl s

end Sys2Proof.Machine
end

