-- ==== Sys2Proof/Laws/Memory.lean ====
section
/-! SUPPORT. The laws of the store and the image: a read after a write, every memory operation keeps the canonical form, and the settings
depend on no unused bit. -/

namespace Sys2Proof.Machine

@[simp] theorem Memory.read_nil (addr : Nat) : Memory.read [] addr = 0 := rfl

theorem Memory.wf_nil : Memory.wf [] := ⟨List.Pairwise.nil, by simp⟩

theorem Memory.wf_tail {a : Nat} {x : Byte} {rest : Memory} (h : Memory.wf ((a, x) :: rest)) : Memory.wf rest :=
  ⟨(List.pairwise_cons.1 h.1).2, fun c hc => h.2 c (List.mem_cons_of_mem _ hc)⟩

/-- Every address listed after the head of a canonical memory lies above the head's. -/
theorem Memory.wf_head_lt {a : Nat} {x : Byte} {rest : Memory} (h : Memory.wf ((a, x) :: rest)) : ∀ c ∈ rest, a < c.1 :=
  (List.pairwise_cons.1 h.1).1

/-- An address below every listed one reads 0x00. -/
theorem Memory.read_of_lt {m : Memory} {addr : Nat} (h : ∀ c ∈ m, addr < c.1) : Memory.read m addr = 0 := by
  induction m with
  | nil => rfl
  | cons c rest ih =>
    obtain ⟨a, x⟩ := c
    have ha : addr < a := h (a, x) (by simp)
    simp only [Memory.read, if_neg (Nat.ne_of_gt ha)]
    exact ih fun d hd => h d (List.mem_cons_of_mem _ hd)

/-- A write lists no address but the old ones and its own. -/
theorem Memory.mem_write {m : Memory} {addr : Nat} {b : Byte} {c : Host.Cell} (h : c ∈ Memory.write m addr b) :
    c ∈ m ∨ (c = (addr, b) ∧ b ≠ 0) := by
  induction m with
  | nil =>
    by_cases hb : b = 0
    · simp [Memory.write, hb] at h
    · simp only [Memory.write, if_neg hb, List.mem_singleton] at h
      exact .inr ⟨h, hb⟩
  | cons d rest ih =>
    obtain ⟨a, x⟩ := d
    by_cases hb : b = 0 <;> by_cases h1 : addr < a <;> by_cases h2 : addr = a <;>
      simp only [Memory.write, hb, h1, h2, if_true, if_false, List.mem_cons, ne_eq, not_true, not_false_eq_true] at h ⊢ <;>
      grind

/-- A write to an address of the array keeps the canonical form. -/
theorem Memory.write_wf {m : Memory} (hm : Memory.wf m) {addr : Nat} (ha : addr < imageSize) (b : Byte) :
    Memory.wf (Memory.write m addr b) := by
  refine ⟨?_, fun c hc => ?_⟩
  · induction m with
    | nil => by_cases hb : b = 0#8 <;> simp [Memory.write, hb]
    | cons d rest ih =>
      obtain ⟨a, x⟩ := d
      have hlt := Memory.wf_head_lt hm
      have hrest := ih (Memory.wf_tail hm)
      simp only [Memory.write]
      split
      · split
        · exact hm.1
        · rename_i h1 _
          refine List.pairwise_cons.2 ⟨fun c hc => ?_, hm.1⟩
          rcases List.mem_cons.1 hc with rfl | hc
          · exact h1
          · exact Nat.lt_trans h1 (hlt c hc)
      · split
        · rename_i h2
          split
          · exact (Memory.wf_tail hm).1
          · exact List.pairwise_cons.2 ⟨fun c hc => h2 ▸ hlt c hc, (Memory.wf_tail hm).1⟩
        · rename_i h1 h2
          refine List.pairwise_cons.2 ⟨fun c hc => ?_, hrest⟩
          rcases Memory.mem_write hc with hc | ⟨rfl, _⟩
          · exact hlt c hc
          · show a < addr
            omega
  · rcases Memory.mem_write hc with hc | ⟨rfl, hb⟩
    · exact hm.2 c hc
    · exact ⟨ha, hb⟩

/-- A read after a write: the byte written at its address, and every other address as before. -/
theorem Memory.read_write {m : Memory} (hm : Memory.wf m) (addr other : Nat) (b : Byte) :
    Memory.read (Memory.write m addr b) other = if other = addr then b else Memory.read m other := by
  induction m with
  | nil =>
    by_cases hb : b = 0#8 <;> by_cases ho : other = addr
    · simp [Memory.write, hb]
    · simp [Memory.write, hb]
    · simp [Memory.write, Memory.read, hb, ho]
    · simp [Memory.write, Memory.read, hb, ho, Ne.symm ho]
  | cons d rest ih =>
    obtain ⟨a, x⟩ := d
    have hlt := Memory.wf_head_lt hm
    have hi := ih (Memory.wf_tail hm)
    by_cases h1 : addr < a
    · have hread : ∀ o, o = addr → Memory.read ((a, x) :: rest) o = 0 := fun o ho => Memory.read_of_lt fun c hc => by
        rcases List.mem_cons.1 hc with rfl | hc
        · exact ho ▸ h1
        · exact ho ▸ Nat.lt_trans h1 (hlt c hc)
      by_cases hb : b = 0#8 <;> by_cases ho : other = addr
      · simp [Memory.write, h1, hb, ho, hread]
      · simp [Memory.write, h1, hb, ho]
      · simp [Memory.write, h1, hb, ho, Memory.read]
      · simp [Memory.write, h1, hb, ho, Memory.read, Ne.symm ho]
    · by_cases h2 : addr = a
      · subst h2
        by_cases hb : b = 0#8 <;> by_cases ho : other = addr
        · simp [Memory.write, hb, ho, Memory.read_of_lt hlt]
        · simp [Memory.write, hb, ho, Memory.read, Ne.symm ho]
        · simp [Memory.write, hb, ho, Memory.read]
        · simp [Memory.write, hb, ho, Memory.read, Ne.symm ho]
      · by_cases ha : a = other
        · subst ha
          simp [Memory.write, h1, h2, Memory.read, Ne.symm h2]
        · simp [Memory.write, h1, h2, Memory.read, ha, hi]

/-- Equal readings make equal memories, among the canonical ones. -/
theorem Memory.ext_read {m n : Memory} (hm : Memory.wf m) (hn : Memory.wf n) (h : ∀ a, Memory.read m a = Memory.read n a) : m = n := by
  induction m generalizing n with
  | nil =>
    cases n with
    | nil => rfl
    | cons c rest =>
      have h1 := h c.1
      simp only [Memory.read, if_true] at h1
      exact absurd h1.symm (hn.2 c (by simp)).2
  | cons c rest ih =>
    obtain ⟨a, x⟩ := c
    cases n with
    | nil =>
      have h1 := h a
      simp only [Memory.read, if_true] at h1
      exact absurd h1 (hm.2 (a, x) (by simp)).2
    | cons d more =>
      obtain ⟨a', x'⟩ := d
      have hx := (hm.2 (a, x) (by simp)).2
      have hx' := (hn.2 (a', x') (by simp)).2
      have haa : a = a' := by
        rcases Nat.lt_trichotomy a a' with hl | he | hl
        · have h1 := h a
          rw [Memory.read_of_lt (m := (a', x') :: more) fun c hc => by
            rcases List.mem_cons.1 hc with rfl | hc
            · exact hl
            · exact Nat.lt_trans hl (Memory.wf_head_lt hn c hc)] at h1
          simp only [Memory.read, if_true] at h1
          exact absurd h1 hx
        · exact he
        · have h1 := h a'
          rw [Memory.read_of_lt (m := (a, x) :: rest) fun c hc => by
            rcases List.mem_cons.1 hc with rfl | hc
            · exact hl
            · exact Nat.lt_trans hl (Memory.wf_head_lt hm c hc)] at h1
          simp only [Memory.read, if_true] at h1
          exact absurd h1.symm hx'
      subst haa
      have hxx : x = x' := by simpa [Memory.read] using h a
      subst hxx
      refine congrArg _ (ih (Memory.wf_tail hm) (Memory.wf_tail hn) fun b => ?_)
      by_cases hb : a = b
      · subst hb
        rw [Memory.read_of_lt (Memory.wf_head_lt hm), Memory.read_of_lt (Memory.wf_head_lt hn)]
      · simpa [Memory.read, hb] using h b

/-- The cells of a page write keep the canonical form, whatever each cell takes. -/
theorem writeCells_wf (choice : Nat) (bytes : List Byte) {m : Memory} (hm : Memory.wf m) {addr : Nat}
    (h : addr + bytes.length ≤ imageSize) : Memory.wf (writeCells choice addr bytes m) := by
  induction bytes generalizing addr m with
  | nil => exact hm
  | cons b rest ih =>
    simp only [List.length_cons] at h
    exact ih (Memory.write_wf hm (by omega) _) (by omega)

/-- The cells of a stopped page write keep the canonical form, whichever of them took their new value. -/
theorem mixCells_wf (choice : Nat) (bytes : List Byte) {m : Memory} (hm : Memory.wf m) {addr : Nat}
    (h : addr + bytes.length ≤ imageSize) : Memory.wf (mixCells choice addr bytes m) := by
  induction bytes generalizing addr m with
  | nil => exact hm
  | cons b rest ih =>
    simp only [List.length_cons] at h
    refine ih ?_ (by omega)
    split
    · exact Memory.write_wf hm (by omega) _
    · exact hm

/-- What a page write leaves at each address: outside its page nothing changes, and a cell of the page takes its byte or, if it fails,
the value Config leaves open. -/
theorem writeCells_read (choice : Nat) (bytes : List Byte) {m : Memory} (hm : Memory.wf m) {addr : Nat}
    (h : addr + bytes.length ≤ imageSize) (a : Nat) :
    Memory.read (writeCells choice addr bytes m) a =
      match (if addr ≤ a then bytes[a - addr]? else none) with
      | none => Memory.read m a
      | some b => if Config.cellFails choice a then Config.cellValue choice a else b := by
  induction bytes generalizing addr m with
  | nil => by_cases h1 : addr ≤ a <;> simp [writeCells, h1]
  | cons b rest ih =>
    simp only [List.length_cons] at h
    rw [writeCells, ih (Memory.write_wf hm (by omega) _) (by omega), Memory.read_write hm]
    rcases Nat.lt_trichotomy a addr with hl | he | hl
    · have h1 : ¬ addr + 1 ≤ a := by omega
      have h2 : ¬ addr ≤ a := by omega
      simp [h1, h2, Nat.ne_of_lt hl]
    · subst he
      simp
    · have h1 : addr + 1 ≤ a := hl
      have h2 : addr ≤ a := by omega
      have h3 : a - addr = (a - (addr + 1)) + 1 := by omega
      simp only [h1, h2, if_true, h3, List.getElem?_cons_succ, if_neg (Nat.ne_of_gt hl)]

/-- What a stopped page write leaves at each address: outside its page nothing changes, and a byte of the page holds its old or its new
value. -/
theorem mixCells_read (choice : Nat) (bytes : List Byte) {m : Memory} (hm : Memory.wf m) {addr : Nat}
    (h : addr + bytes.length ≤ imageSize) (a : Nat) :
    Memory.read (mixCells choice addr bytes m) a =
      match (if addr ≤ a then bytes[a - addr]? else none) with
      | none => Memory.read m a
      | some b => if Config.mixedByteIsNew choice a then b else Memory.read m a := by
  induction bytes generalizing addr m with
  | nil => by_cases h1 : addr ≤ a <;> simp [mixCells, h1]
  | cons b rest ih =>
    simp only [List.length_cons] at h
    have hw : Memory.wf (if Config.mixedByteIsNew choice addr then Memory.write m addr b else m) := by
      split
      · exact Memory.write_wf hm (by omega) _
      · exact hm
    have hr : ∀ o, o ≠ addr →
        Memory.read (if Config.mixedByteIsNew choice addr then Memory.write m addr b else m) o = Memory.read m o := by
      intro o ho
      split
      · rw [Memory.read_write hm, if_neg ho]
      · rfl
    rw [mixCells, ih hw (by omega)]
    rcases Nat.lt_trichotomy a addr with hl | he | hl
    · have h1 : ¬ addr + 1 ≤ a := by omega
      have h2 : ¬ addr ≤ a := by omega
      simp only [h1, h2, if_false]
      exact hr a (by omega)
    · subst he
      have h1 : ¬ a + 1 ≤ a := by omega
      simp only [h1, if_false, Nat.le_refl, if_true, Nat.sub_self, List.getElem?_cons_zero]
      split <;> simp [Memory.read_write hm, *]
    · have h1 : addr + 1 ≤ a := hl
      have h2 : addr ≤ a := by omega
      have h3 : a - addr = (a - (addr + 1)) + 1 := by omega
      simp only [h1, h2, if_true, h3, List.getElem?_cons_succ, hr a (by omega)]

/-- The reset memories have the canonical form. -/
theorem reset_memory_wf : Memory.wf State.reset.store ∧ Memory.wf State.reset.image := ⟨Memory.wf_nil, Memory.wf_nil⟩

/-- Images that agree at `n` consecutive addresses hold the same field there. -/
theorem Memory.field_congr {m k : Memory} {addr n : Nat}
    (h : ∀ j, j < n → Memory.read m (addr + j) = Memory.read k (addr + j)) : Memory.field m addr n = Memory.field k addr n := by
  have : Memory.readRange m addr n = Memory.readRange k addr n := List.map_congr_left fun j hj => h j (List.mem_range.1 hj)
  rw [Memory.field, Memory.field, this]

set_option maxRecDepth 4000 in
/-- Images that agree in every bit that holds a field give the part the same settings. -/
theorem sameSettings_of_fieldBits {m n : Memory}
    (h : ∀ a, a < 512 → Memory.read m a &&& fieldBits a = Memory.read n a &&& fieldBits a) : SameSettings m n := by
  have whole : ∀ a, a < 512 ∧ fieldBits a = 0xFF → Memory.read m a = Memory.read n a := fun a ha => by
    have := h a ha.1
    rwa [ha.2, show (0xFF : Byte) = BitVec.allOnes 8 from rfl, BitVec.and_allOnes, BitVec.and_allOnes] at this
  have wide : ∀ a k, (∀ j, j < k → a + j < 512 ∧ fieldBits (a + j) = 0xFF) → Memory.field m a k = Memory.field n a k :=
    fun a k ha => Memory.field_congr fun j hj => whole _ (ha j hj)
  have level : ∀ t i, imageActiveHigh m t i = imageActiveHigh n t i := fun t i => by
    rw [imageActiveHigh, imageActiveHigh, whole _ (by cases t <;> rcases i with x | x <;> cases x <;> decide)]
  have track : ∀ t, imageTrack m t = imageTrack n t := fun t => by
    have filter : ∀ i, Memory.field m (trackBase t + 0x0C + 2 * inputCode i) 2 = Memory.field n (trackBase t + 0x0C + 2 * inputCode i) 2 :=
      fun i => wide _ _ (by cases t <;> rcases i with x | x <;> cases x <;> decide)
    simp only [imageTrack, TrackConfig.mk.injEq, funext (level t), funext filter, true_and]
    refine ⟨wide _ _ ?_, wide _ _ ?_, wide _ _ ?_, wide _ _ ?_, wide _ _ ?_, wide _ _ ?_, wide _ _ ?_, wide _ _ ?_, wide _ _ ?_,
      wide _ _ ?_, wide _ _ ?_⟩ <;> cases t <;> decide
  have flash : ∀ st, (Memory.read m (stationBase st + 3)).setWidth 6 = (Memory.read n (stationBase st + 3)).setWidth 6 := fun st => by
    have := h (stationBase st + 3) (by cases st <;> decide)
    rw [show fieldBits (stationBase st + 3) = 0x3F by cases st <;> decide] at this
    have := congrArg (BitVec.setWidth 6) this
    rwa [BitVec.setWidth_and, BitVec.setWidth_and, show BitVec.setWidth 6 (0x3F : Byte) = BitVec.allOnes 6 from rfl, BitVec.and_allOnes,
      BitVec.and_allOnes] at this
  have station : ∀ st, imageStation m st = imageStation n st := fun st => by
    simp only [imageStation, StationConfig.mk.injEq, flash, true_and]
    refine ⟨?_, ?_, wide _ _ ?_, wide _ _ ?_, wide _ _ ?_, wide _ _ ?_⟩
    · rw [whole _ (by cases st <;> decide)]
    · rw [whole _ (by cases st <;> decide)]
    all_goals cases st <;> decide
  have owner : ∀ st, imageStationTrack m st = imageStationTrack n st := fun st => by
    rw [imageStationTrack, imageStationTrack, whole _ (by cases st <;> decide)]
  refine ⟨whole _ (by decide), track, fun t => ?_, station, fun u => ?_, fun t => ?_, fun p => ?_⟩
  · simp only [takeSnapshot, track, station, owner, wide 0x002 2 (by decide)]
  · simp only [imageUnit, UnitConfig.mk.injEq]
    exact ⟨by rw [whole _ (by cases u <;> decide)], wide _ _ (by cases u <;> decide)⟩
  · have := congrArg (·.getLsbD (trackCode t)) (h 0x001 (by decide))
    rw [show fieldBits 0x001 = 0x03 from rfl] at this
    cases t <;> simpa [startLiveFlag, trackCode] using this
  · rw [imageAttend, imageAttend, whole _ (by cases p <;> decide)]

end Sys2Proof.Machine
end

