-- ==== Sys2Proof/WellFormed.lean ====
section
/-! DEFINITION. Which commands a processor or the part itself can form: the operand lists whose lengths the rules bound. Everything
else an operand can be (a byte out of range, a number not in the table) is judged by the command's own rule. -/

namespace Sys2Proof

/-- A command is well formed when its operand lists have a length its rule allows: RELAY carries 1 … 12 bytes (R168), INJECT 1 … 3
edges (R146), and a confirmation deadline belongs to a record number 1 … 65 535 (R71). -/
def Instr.wellFormed : Instr → Bool
  | .relay _ _ bytes => 1 ≤ bytes.length && bytes.length ≤ 12
  | .inject _ _ edges => 1 ≤ edges.length && edges.length ≤ 3
  | .confirmationDeadline n => 1 ≤ n && n ≤ 65535
  | _ => true

end Sys2Proof
end

