-- ==== Sys2Proof/Laws/PerInstr.lean ====
section
/-! SUPPORT. A law said of every command as syntax: a well-formed request's frame is its kind byte, a length byte that counts its body,
and a body of at most 13 bytes (R162, R178), so that the frame is complete with its last byte and its length byte is no escape. -/

namespace Sys2Proof.Laws.Frame

open Sys2Proof.Machine

/-- The law: a command that is no request has no frame, and says nothing here. -/
def Statement (i : Instr) : Prop :=
  ∀ p bytes, i.wellFormed = true → requestBytes i = some (p, bytes) →
    ∃ kind body, bytes = kind :: BitVec.ofNat 8 body.length :: body ∧ body.length ≤ 13

/-- A command without a frame. -/
theorem of_none {i : Instr} (h : requestBytes i = none) : Statement i := by
  intro p bytes _ hb
  rw [h] at hb
  exact absurd hb (by simp)

/-- A command whose frame is written out. -/
theorem of_some {i : Instr} {q : PortId} {kind : Byte} {body : List Byte}
    (h : requestBytes i = some (q, kind :: BitVec.ofNat 8 body.length :: body)) (hl : i.wellFormed = true → body.length ≤ 13) :
    Statement i := by
  intro p bytes hw hb
  rw [h] at hb
  simp only [Option.some.injEq, Prod.mk.injEq] at hb
  exact ⟨kind, body, hb.2.symm, hl hw⟩

theorem powerOn : Statement .powerOn := of_none rfl
theorem deviceReset : Statement .deviceReset := of_none rfl
theorem deviceResetRelease (clksel : BitVec 2) : Statement (.deviceResetRelease clksel) := of_none rfl
theorem tbStart : Statement .tbStart := of_none rfl
theorem rawChange (t : Track) (i : Input) (high : Bool) : Statement (.rawChange t i high) := of_none rfl
theorem filterAccept (t : Track) (i : Input) : Statement (.filterAccept t i) := of_none rfl
theorem stuckDeadline (t : Track) (w : Wheel) : Statement (.stuckDeadline t w) := of_none rfl
theorem injectedEdgeDelivery (t : Track) (i : Input) : Statement (.injectedEdgeDelivery t i) := of_none rfl
theorem injectionStuckDeadline (t : Track) (w : Wheel) : Statement (.injectionStuckDeadline t w) := of_none rfl
theorem quietDeadline (t : Track) : Statement (.quietDeadline t) := of_none rfl
theorem windowDeadline (t : Track) (b : Beam) : Statement (.windowDeadline t b) := of_none rfl
theorem wMaxDeadline (t : Track) (b : Beam) : Statement (.wMaxDeadline t b) := of_none rfl
theorem confirmationDeadline (number : Nat) : Statement (.confirmationDeadline number) := of_none rfl
theorem cameraFire (s : Station) : Statement (.cameraFire s) := of_none rfl
theorem flashFire (u : FlashId) : Statement (.flashFire u) := of_none rfl
theorem pulseEnd (o : OutputLine) : Statement (.pulseEnd o) := of_none rfl
theorem chargeDeadline (u : FlashId) : Statement (.chargeDeadline u) := of_none rfl
theorem ageOutDeadline (o : OutputLine) : Statement (.ageOutDeadline o) := of_none rfl
theorem flinhAsserted : Statement .flinhAsserted := of_none rfl
theorem flinhReleased : Statement .flinhReleased := of_none rfl
theorem dataWrite (p : PortId) (b : Byte) : Statement (.dataWrite p b) := of_none rfl
theorem statusWrite (p : PortId) : Statement (.statusWrite p) := of_none rfl
theorem dataRead (p : PortId) : Statement (.dataRead p) := of_none rfl
theorem attendanceDeadline (p : PortId) : Statement (.attendanceDeadline p) := of_none rfl
theorem portReset (p : PortId) : Statement (.portReset p) := of_none rfl
theorem portResetRelease (p : PortId) : Statement (.portResetRelease p) := of_none rfl
theorem nop (p : PortId) : Statement (.nop p) := of_some (body := []) rfl fun _ => Nat.le_of_ble_eq_true rfl
theorem subscribe (p : PortId) (tracks : Byte) (classes : Byte) : Statement (.subscribe p tracks classes) := of_some (body := [tracks, classes]) rfl fun _ => Nat.le_of_ble_eq_true rfl
theorem bind (p : PortId) (station : Byte) : Statement (.bind p station) := of_some (body := [station]) rfl fun _ => Nat.le_of_ble_eq_true rfl
theorem unbind (p : PortId) (station : Byte) : Statement (.unbind p station) := of_some (body := [station]) rfl fun _ => Nat.le_of_ble_eq_true rfl
theorem setTrackMode (p : PortId) (track : Byte) (mode : Byte) : Statement (.setTrackMode p track mode) := of_some (body := [track, mode]) rfl fun _ => Nat.le_of_ble_eq_true rfl
theorem readTrack (p : PortId) (track : Byte) : Statement (.readTrack p track) := of_some (body := [track]) rfl fun _ => Nat.le_of_ble_eq_true rfl
theorem readRecord (p : PortId) (number : BitVec 16) : Statement (.readRecord p number) := of_some (body := [number.extractLsb' 8 8, number.extractLsb' 0 8]) rfl fun _ => Nat.le_of_ble_eq_true rfl
theorem latestRecords (p : PortId) (track : Byte) : Statement (.latestRecords p track) := of_some (body := [track]) rfl fun _ => Nat.le_of_ble_eq_true rfl
theorem readOutputs (p : PortId) : Statement (.readOutputs p) := of_some (body := []) rfl fun _ => Nat.le_of_ble_eq_true rfl
theorem tagPassage (p : PortId) (track : Byte) (tag : BitVec 32) : Statement (.tagPassage p track tag) := of_some (body := track :: bigEndian tag) rfl fun _ => Nat.le_of_ble_eq_true rfl
theorem relay (p : PortId) (target : Byte) (bytes : List Byte) : Statement (.relay p target bytes) := by
  refine of_some (body := target :: bytes) rfl fun h => ?_
  simp only [Instr.wellFormed, Bool.and_eq_true, decide_eq_true_eq] at h
  simp only [List.length_cons]; omega
theorem inject (p : PortId) (track : Byte) (edges : List EdgeArg) : Statement (.inject p track edges) := by
  have hl : ∀ l : List EdgeArg, (l.flatMap fun e => [e.edge, e.offset.extractLsb' 16 8, e.offset.extractLsb' 8 8,
      e.offset.extractLsb' 0 8]).length = 4 * l.length := by
    intro l
    induction l with
    | nil => rfl
    | cons a l ih => rw [List.flatMap_cons, List.length_append, ih]; simp only [List.length_cons, List.length_nil]; omega
  refine of_some (q := p) (kind := 0x0C) (body := track :: edges.flatMap fun e => [e.edge, e.offset.extractLsb' 16 8, e.offset.extractLsb' 8 8,
    e.offset.extractLsb' 0 8]) ?_ fun h => ?_
  · simp only [requestBytes, List.length_cons, hl]; rfl
  · simp only [Instr.wellFormed, Bool.and_eq_true, decide_eq_true_eq] at h
    simp only [List.length_cons, hl]; omega
theorem readFaults (p : PortId) : Statement (.readFaults p) := of_some (body := []) rfl fun _ => Nat.le_of_ble_eq_true rfl
theorem releaseFault (p : PortId) (mask : BitVec 16) : Statement (.releaseFault p mask) := of_some (body := [mask.extractLsb' 8 8, mask.extractLsb' 0 8]) rfl fun _ => Nat.le_of_ble_eq_true rfl
theorem readTime (p : PortId) : Statement (.readTime p) := of_some (body := []) rfl fun _ => Nat.le_of_ble_eq_true rfl
theorem maintRead (hi : Byte) (lo : Byte) : Statement (.maintRead hi lo) := of_none rfl
theorem maintWrite (hi : Byte) (lo : Byte) (data : Byte) : Statement (.maintWrite hi lo data) := of_none rfl
theorem maintReadNext : Statement .maintReadNext := of_none rfl
theorem maintWriteNext (data : Byte) : Statement (.maintWriteNext data) := of_none rfl
theorem commit : Statement .commit := of_none rfl
theorem commitPage : Statement .commitPage := of_none rfl
theorem commitEnd : Statement .commitEnd := of_none rfl
theorem checksum : Statement .checksum := of_none rfl
theorem unknownCommandByte (b : Byte) : Statement (.unknownCommandByte b) := of_none rfl
theorem codeByte (b : Byte) : Statement (.codeByte b) := of_none rfl
theorem lineBreak : Statement .lineBreak := of_none rfl
theorem framingError : Statement .framingError := of_none rfl
theorem powerLoss : Statement .powerLoss := of_none rfl
theorem byteReceivedInFlight (b : Byte) : Statement (.byteReceivedInFlight b) := of_none rfl

end Sys2Proof.Laws.Frame
end

