-- ==== Sys2Proof/Laws/Requests.lean ====
section
/-! SUPPORT. What a request on a ready port does: its frame is assembled, judged and answered, said once for all fifteen (R152, R155). -/

namespace Sys2Proof.Machine

/-! ### Changing one port -/

@[simp] theorem setPorts_setPorts (s : State) (a b : PerPort Port) : (s.setPorts a).setPorts b = s.setPorts b := rfl

/-- Two changes of one port are one. -/
theorem updatePort_updatePort (s : State) (p : PortId) (f g : Port → Port) :
    (s.updatePort p f).updatePort p g = s.updatePort p fun x => g (f x) := by
  simp [State.updatePort, PerPort.modify, setPorts_setPorts]

@[simp] theorem updatePort_get (s : State) (p : PortId) (f : Port → Port) : (s.updatePort p f).ports.get p = f (s.ports.get p) := by
  simp [State.updatePort]

@[simp] theorem updatePort_get_ne (s : State) {p q : PortId} (f : Port → Port) (h : p ≠ q) :
    (s.updatePort p f).ports.get q = s.ports.get q := by
  simp [State.updatePort, h]

/-- A change that leaves the port as it is changes nothing. -/
theorem updatePort_self (s : State) (p : PortId) (f : Port → Port) (h : f (s.ports.get p) = s.ports.get p) : s.updatePort p f = s := by
  simp only [State.updatePort, PerPort.modify, h, PerPort.set_get]; rfl

/-- Only the port's own value matters to a change. -/
theorem updatePort_congr (s : State) (p : PortId) {f g : Port → Port} (h : f (s.ports.get p) = g (s.ports.get p)) :
    s.updatePort p f = s.updatePort p g := by
  simp only [State.updatePort, PerPort.modify, h]

/-! ### Assembling a frame -/

/-- A frame that is not complete is not complete after fewer bytes. -/
theorem frameComplete_take (bytes : List Byte) (h : ∀ k n body, bytes = k :: n :: body → body ≠ [] → n.toNat = body.length ∧ body.length < 15)
    (j : Nat) (hj : j < bytes.length) : frameComplete (bytes.take j) = false := by
  match bytes, j with
  | [], _ => simp at hj
  | _ :: _, 0 => rfl
  | k :: rest, 1 => cases rest <;> rfl
  | [k], j + 2 => simp at hj
  | k :: n :: body, j + 2 =>
    have hb : body ≠ [] := by
      rintro rfl
      simp at hj
    obtain ⟨h1, h2⟩ := h k n body rfl hb
    simp only [List.length_cons] at hj
    have hn : n ≠ 0 := by
      rintro rfl
      have : 0 < body.length := List.length_pos_iff.mpr hb
      simp at h1; omega
    simp only [List.take_succ_cons, frameComplete, List.length_take, Bool.or_eq_false_iff, decide_eq_false_iff_not]
    exact ⟨⟨hn, by omega⟩, by omega⟩

/-- A data write that leaves the frame incomplete only appends its byte (R152). -/
theorem writeByte_appends (s : State) (p : PortId) (b : Byte) (h1 : (s.ports.get p).inReset = false)
    (h2 : (s.ports.get p).holder = none) (h3 : (s.ports.get p).holding = false)
    (h4 : frameComplete ((s.ports.get p).assembler ++ [b]) = false) :
    s.writeByte p b = s.updatePort p fun x => { x with assembler := x.assembler ++ [b] } := by
  simp [State.writeByte, State.assemble, h1, h2, h3, h4]

/-- A data write that completes the frame with the reply slot empty executes it (R152). -/
theorem writeByte_executes (s : State) (p : PortId) (b : Byte) (h1 : (s.ports.get p).inReset = false)
    (h2 : (s.ports.get p).holder = none) (h3 : (s.ports.get p).holding = false) (h5 : (s.ports.get p).reply = none)
    (h4 : frameComplete ((s.ports.get p).assembler ++ [b]) = true) :
    s.writeByte p b = (s.updatePort p fun x => { x with assembler := x.assembler ++ [b] }).executeFrame p := by
  simp [State.writeByte, State.assemble, h1, h2, h3, h4, h5]

/-- The bytes of a frame but the last only fill the assembler. -/
theorem writeBytes_appends (s : State) (p : PortId) (bytes : List Byte) (h1 : (s.ports.get p).inReset = false)
    (h2 : (s.ports.get p).holder = none) (h3 : (s.ports.get p).holding = false)
    (h4 : ∀ j, 0 < j → j ≤ bytes.length → frameComplete ((s.ports.get p).assembler ++ bytes.take j) = false) :
    s.writeBytes p bytes = s.updatePort p fun x => { x with assembler := x.assembler ++ bytes } := by
  induction bytes generalizing s with
  | nil => exact (updatePort_self _ _ _ (by simp)).symm
  | cons b rest ih =>
    have hb := h4 1 (by omega) (by simp)
    simp only [List.take_succ_cons, List.take_zero] at hb
    show State.writeBytes (s.writeByte p b) p rest = _
    rw [writeByte_appends s p b h1 h2 h3 hb, ih]
    · rw [updatePort_updatePort]
      exact updatePort_congr _ _ (by simp)
    · simpa using h1
    · simpa using h2
    · simpa using h3
    · intro j hj hl
      have := h4 (j + 1) (by omega) (by simpa using hl)
      simpa using this

/-- A frame whose length byte counts its body, at most 14 bytes, is complete with its last byte and not before. -/
theorem requestFrame_split (k : RequestKind) (body : List Byte) (h : body.length ≤ 14) :
    ∃ front last, requestFrame k body = front ++ [last] ∧ frameComplete (front ++ [last]) = true ∧
      ∀ j, j ≤ front.length → frameComplete (front.take j) = false := by
  have hne : requestFrame k body ≠ [] := by simp [requestFrame]
  refine ⟨(requestFrame k body).dropLast, (requestFrame k body).getLast hne, (List.dropLast_append_getLast hne).symm, ?_, ?_⟩
  · rw [List.dropLast_append_getLast]
    have hn : (BitVec.ofNat 8 body.length).toNat = body.length := by simp; omega
    simp only [requestFrame, frameComplete, hn, Nat.le_refl, decide_true, Bool.or_true]
  · intro j hj
    have hlen : (requestFrame k body).dropLast.length + 1 = (requestFrame k body).length := by
      simp [requestFrame]
    have htake : (requestFrame k body).dropLast.take j = (requestFrame k body).take j := by
      rw [List.dropLast_eq_take, List.take_take]; congr 1; omega
    rw [htake]
    apply frameComplete_take _ _ _ (by omega)
    intro k' n b hb hne'
    simp only [requestFrame, List.cons.injEq] at hb
    obtain ⟨-, rfl, rfl⟩ := hb
    refine ⟨?_, by omega⟩
    simp only [BitVec.toNat_ofNat]; omega

/-- A request whose body has at most 14 bytes, written to a ready port of a running part, fills the assembler and is executed. -/
theorem request_executes (s : State) (p : PortId) (k : RequestKind) (body : List Byte) (hr : s.Running) (hx : (s.ports.get p).Ready)
    (hl : body.length ≤ 14) :
    s.request p k body = (s.updatePort p fun x => { x with assembler := requestFrame k body }).executeFrame p := by
  obtain ⟨h1, h2, h3, h4, h5, -⟩ := hx
  obtain ⟨front, last, he, hc, hi⟩ := requestFrame_split k body hl
  have hr' : s.clock.power = .running := hr
  rw [State.request, State.whenRunning, if_pos hr', he, State.writeBytes, List.foldl_append]
  show State.writeByte (s.writeBytes p front) p last = _
  rw [writeBytes_appends s p front h1 h2 h3 (by intro j _ hj; rw [h4]; simpa using hi j hj)]
  rw [writeByte_executes]
  · rw [updatePort_updatePort]
    rw [updatePort_congr s p (g := fun x => { x with assembler := front ++ [last] })]
    simp [h4]
  · simpa using h1
  · simpa using h2
  · simpa using h3
  · simpa using h5
  · simpa [h4] using hc

/-- The deadline a restart sets (R159). -/
theorem attendanceDeadline_eq (t : State) (p : PortId) : attendanceDeadline t.image p t.now = t.restarted p := by
  unfold attendanceDeadline State.restarted imageAttend State.now plus
  have h : (Memory.read t.image (4 + portCode p)).toNat = 0 ↔ Memory.read t.image (4 + portCode p) = 0 :=
    ⟨fun h => BitVec.eq_of_toNat_eq (by simpa using h), fun h => by simp [h]⟩
  by_cases h' : Memory.read t.image (4 + portCode p) = 0
  · exact (if_pos (h.mpr h')).trans (if_pos h').symm
  · exact (if_neg (fun x => h' (h.mp x))).trans (if_neg h').symm

/-- A request on a ready port, of which performing it makes `t` of the state (the port's own entry apart), is answered in `t` (R155). -/
theorem request_answers (s t : State) (p : PortId) (k : RequestKind) (body out : List Byte) (r : Result) (hr : s.Running)
    (hx : (s.ports.get p).Ready) (hl : body.length ≤ 14) (hk : allowsLength k body.length = true)
    (hj : (s.updatePort p fun x => { x with assembler := requestFrame k body, executing := true }).perform p k body =
      { result := r, body := out, state := t.updatePort p fun x => { x with assembler := requestFrame k body, executing := true } })
    (h2 : (t.ports.get p).holder = none) (h3 : (t.ports.get p).holding = false) (h4 : (t.ports.get p).executing = false) :
    s.request p k body = t.answers p (kindByte k :: resultCode r :: .ofNat 8 out.length :: out) := by
  have hn : (BitVec.ofNat 8 body.length).toNat = body.length := by simp; omega
  have hkind : requestKindOf (kindByte k) = some k := by cases k <;> rfl
  rw [request_executes s p k body hr hx hl]
  have hjudge : ((s.updatePort p fun x => { x with assembler := requestFrame k body }).updatePort p
      fun x => { x with executing := true }).judge p (kindByte k) (.ofNat 8 body.length) body =
      { result := r, body := out, state := t.updatePort p fun x => { x with assembler := requestFrame k body, executing := true } } := by
    rw [updatePort_updatePort, State.judge, hkind]
    simp only [hn, hk, if_true]
    exact hj
  unfold State.executeFrame
  simp only [updatePort_get, requestFrame]
  have hjudge' := hjudge
  simp only [requestFrame] at hjudge'
  rw [hjudge']
  simp only [updatePort_updatePort]
  rw [State.answers]
  show _ = t.updatePort p _
  apply updatePort_congr
  have hr1 := attendanceDeadline_eq t p
  simp only [Port.finishExecution, Port.answered, Port.arbitrate, Port.load, h2, replyBytes]
  have hr1' : attendanceDeadline (t.updatePort p fun x => { x with assembler := kindByte k :: .ofNat 8 body.length :: body, executing := true }).image p
    (t.updatePort p fun x => { x with assembler := kindByte k :: .ofNat 8 body.length :: body, executing := true }).now = t.restarted p := hr1
  rw [hr1']
  cases hp : (t.ports.get p).inProgress <;> simp [Option.filter, h3, h4]

/-- A request on a ready port is performed on the state in which its frame is complete, and then answered, whatever performing it does to the
ports (R155). -/
theorem request_performed (s : State) (p : PortId) (k : RequestKind) (body : List Byte) (hr : s.Running) (hx : (s.ports.get p).Ready)
    (hl : body.length ≤ 14) (hk : allowsLength k body.length = true) :
    let a := (s.performing p (requestFrame k body)).perform p k body
    s.request p k body = a.state.performed p (kindByte k :: resultCode a.result :: .ofNat 8 a.body.length :: a.body) := by
  have hn : (BitVec.ofNat 8 body.length).toNat = body.length := by simp; omega
  have hkind : requestKindOf (kindByte k) = some k := by cases k <;> rfl
  rw [request_executes s p k body hr hx hl]
  unfold State.executeFrame
  simp only [updatePort_get, updatePort_updatePort, requestFrame, State.judge, hkind, hn, hk, if_true]
  show State.updatePort _ p _ = State.updatePort _ p _
  apply updatePort_congr
  rw [attendanceDeadline_eq]
  simp only [Port.finishExecution, Port.arbitrate, Port.load, replyBytes, State.updatePort, State.performing]
  split <;> rename_i h <;> simp_all [Option.filter]

end Sys2Proof.Machine
end

