-- ==== Sys2Proof/Tests/Slice0.lean ====
section
/-! SUPPORT. Tests of one command each on small states, with results taken from the worked cases of the chapters or worked from the
rules; and, for each statement of Sys2Proof/Certificates/Slice0/Obligations.lean, a witness that its hypotheses are met. -/

namespace Sys2Proof.Tests

open Sys2Proof.Machine

/-! ### Small states -/

/-- The state after a command. -/
def after (c : Instr) (s : State) : State :=
  match exec c s with
  | .next u => u
  | _ => s

/-- TB counts and stands at 1 000; nothing else has happened since reset. -/
def up : State := State.reset.setClock { power := .running, clksel := 0, refPhase := 0, tb := 1000, loadFailed := false }

/-- RST_N is released and the store is being loaded. -/
def loading : State := State.reset.setClock { power := .loading, clksel := 0, refPhase := 0, tb := 0, loadFailed := false }

/-- The part without power. -/
def off : State := State.reset.setClock { power := .unpowered, clksel := 0, refPhase := 0, tb := 0, loadFailed := false }

def atTime (s : State) (tb : Time) : State := s.setClock { s.clock with tb := tb }

/-- The settings of the worked cases: S_w = 1 500 mm, so T_PAIR = 3 000 000 µs; every input active high with N_FILT = 20. -/
def cfg : TrackConfig :=
  { xW1 := 2000, xW2 := 3500, xHA := 10000, xHB := 24000, activeHigh := .tabulate fun _ => true, nFilt := .tabulate fun _ => 20,
    tStuck := 200, m := 250, lMin := 150, lMax := 800, wMax := 200000, tQuiet := 50, cTol := 2000 }

/-- S0 and S1 of the case of planning record 17. -/
def sta0 : StationConfig :=
  { enabled := true, policy := .required, flashSet := 0b000100, x := 16000, delta := 1200, pulse := 1000, spacing := 20000 }

def sta1 : StationConfig :=
  { enabled := true, policy := .preferred, flashSet := 0b001100, x := 19250, delta := 800, pulse := 1000, spacing := 20000 }

def snap : TrackSnapshot :=
  { config := cfg, tSetup := 500, stations := (PerStation.tabulate fun _ => none).set .s0 (some sta0) |>.set .s1 (some sta1) }

def unitSet : PerUnit UnitConfig := .tabulate fun _ => { enabled := true, recharge := 50000 }

def control (m : Mode) (q : List InjectedEdge) : TrackControl := { mode := m, snapshot := some snap, injections := q }

/-- Track 0 in a mode, with edges queued. -/
def inMode (m : Mode) (q : List InjectedEdge) : State :=
  (up.setTracks (up.tracks.set .t0 (control m q))).setUnitSnapshot (some unitSet)

def live : State := inMode .live []

/-- A passage in direction A, RUNNING, without an estimate. -/
def pass : Passage :=
  { number := 7, direction := .a, reversed := false, openTime := 500, leading := 2, trailing := 0, accepted := 0, rejected := 0,
    vEst := none, discord := 0, orphan := 0, heads := 0, lastEdge := 900, quietAt := some 500900, quietElapsed := false, tag := none,
    queue := [500, 900] }

def inPassage (p : Passage) : State := live.setPassages (live.passages.set .t0 (some p))

/-- A FORMING record of that passage. -/
def forming (n : Nat) : HeadRecord :=
  { number := n, track := .t0, direction := .a, passage := 7, test := false, state := .forming, tLead := 600, tTrail := none, strips := 1,
    width := 0, length := 0, speed := 0, confirmation := .none, expectedFar := none, residual := none, tag := none, entries := [],
    confirmAt := none, overdue := false, ofOpenPassage := true }

/-- The same PLANNED, WAITING for its far head at 1 000, with one station entry. -/
def planned (n : Nat) (e : StationEntry) : HeadRecord :=
  { forming n with state := .planned, tTrail := some 700, width := 100, length := 200, speed := 2000, confirmation := .waiting,
                   expectedFar := some 1000, confirmAt := some 3000, entries := [e] }

def awaiting : StationEntry := { station := .s0, camera := .pending, flash := .booked, trigger := some 1000, fired := 0 }

def holding (s : State) (l : List HeadRecord) : State := s.setTable { records := l, next := 30 }

def withHead (s : State) (h : HeadUnit) : State := s.setHead .t0 .ha h

def head0 : Head := { tLead := 600, strips := 1, wMaxAt := some 1000, limitPassed := false, record := none }

def unitIn (x : HeadState) (r : Role) : HeadUnit := { state := x, role := r, pendingRole := none }

def withPort (s : State) (f : Port → Port) : State := s.updatePort .p0 f

def withMaint (s : State) (f : Maintenance → Maintenance) : State := s.setMaint (f s.maint)

def openLine : State := withMaint up fun m => { m with access := .open }

def shutLine : State := withMaint up fun m => { m with access := .shut }

def cam0 (t : Time) : Entry := { fireAt := t, output := .cam .s0, record := 3, station := .s0 }

def fire2 (t : Time) : Entry := { fireAt := t, output := .fire .u2, record := 3, station := .s0 }

/-- A PLANNED record with its CAMERA entry due now and its FLASH entry at 2 200, booked; S0 is bound to port 0. -/
def armed : State :=
  (((holding (inPassage pass) [planned 3 awaiting]).setTriggers [cam0 1000, fire2 2200]).setUnits
    (up.units.modify .u2 fun f => { f with bookings := [2200] })).setBindings (up.bindings.set .s0 (some .p0))

/-- The same at 2 200, the camera fired. -/
def lit : State :=
  atTime ((armed.setTriggers [fire2 2200]).setTable { records := [planned 3 { awaiting with camera := .fired }], next := 30 }) 2200

def page5 : CommitWrite := { page := 5, pageEndAt := 1000, bytes := List.replicate 16 1 }

def committing (w : CommitWrite) : State := withMaint openLine fun m => { m with commit := some w }

/-! ### Well-formedness refuses what its checks exclude -/

theorem test_wf_relay_empty : (Instr.relay .p0 1 []).wellFormed = false := by decide
theorem test_wf_relay_long : (Instr.relay .p0 1 (List.replicate 13 0)).wellFormed = false := by decide
theorem test_wf_relay_twelve : (Instr.relay .p0 1 (List.replicate 12 0)).wellFormed = true := by decide
theorem test_wf_inject_empty : (Instr.inject .p0 0 []).wellFormed = false := by decide
theorem test_wf_inject_four : (Instr.inject .p0 0 (List.replicate 4 ⟨0, 1⟩)).wellFormed = false := by decide
theorem test_wf_record_zero : (Instr.confirmationDeadline 0).wellFormed = false := by decide
theorem test_wf_record_beyond : (Instr.confirmationDeadline 65536).wellFormed = false := by decide
theorem test_no_word_spells_a_command : decodeTableWord 16 0x1234 = none := rfl

/-! ### Time base, resets and start -/

/-- R1: strap 11 divides REFCLK by 20, so the 20th period advances TB and the 19th does not. -/
theorem test_divider : (State.refclk (up.setClock { up.clock with clksel := 3, refPhase := 19 })).clock.tb = 1001 ∧
    (State.refclk (up.setClock { up.clock with clksel := 3, refPhase := 18 })).clock.tb = 1000 := by decide

set_option maxRecDepth 20000 in
/-- R172, R175: a store whose checksum does not match clears the image and opens the line. -/
theorem test_load_failure : (after (.deviceResetRelease 0) (State.reset.setStore [(0x10, 5)])).maint.access = .open ∧
    (after (.deviceResetRelease 0) (State.reset.setStore [(0x10, 5)])).image = [] := by decide

set_option maxRecDepth 20000 in
/-- R172: the byte 5 at 0x010 and the checksum 0x0005 at 0x1FE agree. -/
theorem test_load_success :
    (after (.deviceResetRelease 2) (State.reset.setStore [(0x10, 5), (0x1FF, 5)])).image = [(0x10, 5), (0x1FF, 5)] ∧
    (after (.deviceResetRelease 2) (State.reset.setStore [(0x10, 5), (0x1FF, 5)])).maint.access = .waitingCode := by decide

/-- R171: the failed load is reported once TB starts, with time 0. -/
theorem test_tb_start : (after .tbStart (loading.setClock { loading.clock with loadFailed := true })).faults.held =
    some { kind := .storeInvalid, track := none, item := .none, time := 0 } := by decide

/-- R134. -/
theorem test_power_on : (after .powerOn armed).triggers = [] ∧ (after .powerOn armed).clock.power = .inReset := by decide

/-- R88, R175: the records go, the access state stays. -/
theorem test_device_reset : (after .deviceReset armed).table.records = [] ∧ (after .deviceReset openLine).maint.access = .open := by
  decide

/-- R177. -/
theorem test_power_loss : (after .powerLoss openLine).maint.access = .waitingCode := by decide

/-! ### Input conditioners: the case of a bouncing axle and the case across the wrap -/

def w1 : Input := .wheel .w1

def lowPin (s : State) (raw : Bool) (p : PinState) (f : Option Filter) : State :=
  s.setConditioner .t0 w1 { Conditioner.fresh raw with pin := p, filter := f }

/-- Across the wrap: t0 = 4 294 967 290 with N_FILT = 20 gives the deadline 14. -/
theorem test_filter_wraps : ((after (.rawChange .t0 w1 true) (atTime (lowPin live false .inactive none) 4294967290)).conditioner .t0 w1).filter
    = some { toActive := true, t0 := 4294967290, deadline := 14 } := by decide

/-- The bounce at 5 008 cancels the filter of 5 000 (R8). -/
theorem test_bounce_cancels :
    ((after (.rawChange .t0 w1 false) (atTime (lowPin live true .inactive (some ⟨true, 5000, 5020⟩)) 5008)).conditioner .t0 w1).filter = none := by
  decide

/-- At 5 031 the filter of 5 011 is accepted, stuck deadline 205 011, and the edge stamped 5 011 opens a passage. -/
theorem test_filter_accept :
    let u := after (.filterAccept .t0 w1) (atTime (lowPin live true .inactive (some ⟨true, 5011, 5031⟩)) 5031)
    (u.conditioner .t0 w1).pin = .active ∧ (u.conditioner .t0 w1).stuckAt = some 205011 ∧
      (u.passages.get .t0).map (·.openTime) = some 5011 := by decide

/-- At 250 000 the covered sensor goes STUCK and the fault names it. -/
theorem test_stuck :
    let s := live.setConditioner .t0 w1 { Conditioner.fresh true with pin := .active, stuckAt := some 250000 }
    ((after (.stuckDeadline .t0 .w1) (atTime s 250000)).conditioner .t0 w1).pin = .stuck ∧
    (after (.stuckDeadline .t0 .w1) (atTime s 250000)).faults.held =
      some { kind := .wheelStuck, track := some .t0, item := .input w1, time := 250000 } := by decide

/-- R16. -/
theorem test_injection_stuck :
    let s := (inMode .test []).setConditioner .t0 w1 { Conditioner.fresh true with injection := .active, injectionStuckAt := some 1000 }
    ((after (.injectionStuckDeadline .t0 .w1) s).conditioner .t0 w1).injection = .stuck := by decide

/-- R15, R147: an injected active edge opens a passage in TEST, stamped now. -/
theorem test_injected_edge :
    let u := after (.injectedEdgeDelivery .t0 w1) (inMode .test [⟨w1, true, 1000⟩, ⟨.beam .ha, true, 1500⟩])
    (u.conditioner .t0 w1).injection = .active ∧ (u.passages.get .t0).map (·.openTime) = some 1000 ∧
      (u.tracks.get .t0).injections = [⟨.beam .ha, true, 1500⟩] := by decide

/-! ### Passages: the train at speed -/

/-- W2 1 018 750 against W1 1 000 000: Δ = 18 750 seeds 80 000. -/
theorem test_seed : ({ pass with queue := [1000000] }.trailingEdge cfg 1018750).vEst = some 80000 := by decide

/-- Δ = 18 870 gives 79 491, concordant with 80 000: 79 873. -/
theorem test_concordant : ({ pass with vEst := some 80000, queue := [1031250] }.trailingEdge cfg 1050120).vEst = some 79873 := by
  decide

/-- Δ = 50 000 gives 30 000, discordant with 79 873: the estimate holds and the run becomes 1. -/
theorem test_discordant :
    let p := { pass with vEst := some 79873, accepted := 2, queue := [1200000] }.trailingEdge cfg 1250000
    p.vEst = some 79873 ∧ p.discord = 1 ∧ p.rejected = 1 := by decide

/-- Δ = 14 000 gives 107 142, implausible; and the third discordant sample reseeds 40 000 to 80 000. -/
theorem test_implausible_and_reseed :
    ({ pass with vEst := some 79746, queue := [1400000] }.trailingEdge cfg 1414000).rejected = 1 ∧
    ({ pass with vEst := some 40000, discord := 2, queue := [2000000] }.trailingEdge cfg 2018750).vEst = some 80000 := by decide

/-- R36: the third orphan reverses the passage and abandons its records. -/
theorem test_reversal :
    let s := holding (inPassage { pass with queue := [], orphan := 2 }) [forming 3]
    let u := s.wheelEdge .t0 .w2 true 1000
    (u.passages.get .t0).map (·.reversed) = some true ∧ u.table.records.map (·.state) = [.abandoned] ∧
      u.faults.held = some { kind := .reversal, track := some .t0, item := .input (.wheel .w2), time := 1000 } := by decide

/-- R42: the counts differ, so the close raises AXLE_MISMATCH; nothing holds the passage open. -/
theorem test_quiet_closes :
    let u := after (.quietDeadline .t0) (inPassage { pass with quietAt := some 1000 })
    u.passages.get .t0 = none ∧ u.faults.flags = 2 := by decide

/-- R41: a WAITING record holds it open. -/
theorem test_quiet_waits :
    let u := after (.quietDeadline .t0) (holding (inPassage { pass with quietAt := some 1000 }) [planned 3 awaiting])
    (u.passages.get .t0).map (·.quietElapsed) = some true := by decide

/-! ### Heads: the two-strip head, and planning record 17 -/

/-- 80 000 mm/s and M = 250: the window is 3 125, and without an estimate 50 000. -/
theorem test_window : mergeWindow (some 80000) 250 = 3125 ∧ mergeWindow none 250 = 50000 ∧ mergeWindow (some 80000) 0 = 0 := by decide

/-- The head of 1 000 000 … 1 003 500 closing at 1 006 625 with the estimate at 80 000. -/
def closing17 : State :=
  let s := holding (inPassage { pass with vEst := some 80000 }) [{ forming 17 with tLead := 1000000 }]
  let s := (s.setBindings ((s.bindings.set .s0 (some .p1)).set .s1 (some .p1)))
  atTime (withHead s (unitIn (.gap { head0 with tLead := 1000000, strips := 2, wMaxAt := some 1200000, record := some 17 } 1003500 1006625)
    .near)) 1006625

/-- The trigger list and the booking after the close, as the case has them. -/
theorem test_record_17_entries : (after (.windowDeadline .t0 .ha) closing17).triggers =
      [⟨1075550, .cam .s0, 17, .s0⟩, ⟨1076750, .fire .u2, 17, .s0⟩, ⟨1116575, .cam .s1, 17, .s1⟩] ∧
    ((after (.windowDeadline .t0 .ha) closing17).units.get .u2).bookings = [1076750] ∧
    ((after (.windowDeadline .t0 .ha) closing17).units.get .u3).bookings = [] := by decide

/-- Record 17 after the close: length 280, expected far time 1 176 750, confirmation deadline 1 178 750, S1 UNAVAILABLE. -/
theorem test_record_17_record :
    let l := (after (.windowDeadline .t0 .ha) closing17).table.records
    l.map (·.length) = [280] ∧ l.map (·.expectedFar) = [some 1176750] ∧ l.map (·.confirmAt) = [some 1178750] ∧
    l.map (·.entries) = [[⟨.s0, .pending, .booked, some 1075550, 0⟩, ⟨.s1, .pending, .unavailable, some 1116575, 0⟩]] := by
  decide

/-- R58: at its W_MAX deadline a NEAR unit is BLOCKED, and so is the head's record. -/
theorem test_w_max :
    let u := after (.wMaxDeadline .t0 .ha) (withHead (holding (inPassage pass) [forming 3]) (unitIn (.covered { head0 with record := some 3 }) .near))
    (u.head .t0 .ha).state = .blocked ∧ u.table.records.map (·.state) = [.blocked] := by decide

/-- R66: with no far head under way the record is MISSING, and its expected far time stays. -/
theorem test_confirmation :
    let u := after (.confirmationDeadline 3) (holding (inPassage pass) [{ planned 3 awaiting with confirmAt := some 1000 }])
    u.table.records.map (fun r => (r.confirmation, r.expectedFar, r.confirmAt)) = [(.missing, some 1000, none)] := by decide

/-- The margins: τ at 2 000 mm/s over 6 000 and 3 000 mm, and at 95 000 over 500 mm. -/
theorem test_time_to_go : timeToGo 6000 2000 = 3000000 ∧ timeToGo 3000 2000 = 1500000 ∧ timeToGo 500 95000 = 5263 := by decide

/-! ### Firing, pulses, the inhibit -/

/-- R123: the pulse lasts P_s, the last fire is now, and the camera outcome FIRED. -/
theorem test_camera_fire : (after (.cameraFire .s0) armed).outputs.cam.get .s0 = some 2000 ∧
    (after (.cameraFire .s0) armed).table.records.map (fun r => r.entries.map (·.camera)) = [[.fired]] ∧
    (after (.cameraFire .s0) armed).triggers = [fire2 2200] := by decide

/-- R124: the fire output pulses 50 µs, U2 recharges until 52 200, and the only FLASH entry makes the result FIRED. -/
theorem test_flash_fire : (after (.flashFire .u2) lit).outputs.fire.get .u2 = some 2250 ∧
    ((after (.flashFire .u2) lit).units.get .u2).chargeAt = some 52200 ∧
    (after (.flashFire .u2) lit).table.records.map (fun r => r.entries.map fun e => (e.flash, e.fired)) = [[(.fired, 4)]] := by
  decide

theorem test_pulse_end : (after (.pulseEnd (.cam .s0)) (up.setOutputs { up.outputs with cam := up.outputs.cam.set .s0 (some 1000) })).outputs
    = up.outputs := by decide

def charging : FlashUnit := { state := .charging, lastFire := some 900, chargeAt := some 1000, ageOutAt := some 1000, bookings := [] }

def charge (f : FlashUnit) : State := up.setUnits (up.units.set .u0 f)

/-- R107: CHARGING becomes READY and INHIBITED stays. -/
theorem test_charge : ((after (.chargeDeadline .u0) (charge charging)).units.get .u0).state = .ready ∧
    ((after (.chargeDeadline .u0) (charge { charging with state := .inhibited })).units.get .u0).state = .inhibited := by decide

/-- R110: the last fire stays and is no longer recent. -/
theorem test_age_out : ((after (.ageOutDeadline (.fire .u0)) (charge charging)).units.get .u0).lastFire = some 900 ∧
    ((after (.ageOutDeadline (.fire .u0)) (charge charging)).units.get .u0).ageOutAt = none := by decide

/-- R113: S0 is REQUIRED, so its camera goes with its flash, and the entry is CANCELLED. -/
theorem test_flinh_asserted : (after .flinhAsserted armed).triggers = [] ∧
    ((after .flinhAsserted armed).units.get .u2).bookings = [] ∧
    (after .flinhAsserted armed).table.records.map (fun r => r.entries.map fun e => (e.camera, e.flash)) = [[(.cancelled, .cancelled)]] := by
  decide

/-- R114: a unit with a charge deadline is CHARGING again, another READY. -/
theorem test_flinh_released :
    let s := (charge { charging with state := .inhibited }).setInhibit { pin := true, asserted := true, sampleTaken := false }
    ((after .flinhReleased s).units.get .u0).state = .charging := by decide

/-! ### Ports and requests -/

/-- The case of the held request: a NOP completed while a reply waits is held, and a further byte stops at the holder. -/
theorem test_data_write_holds :
    let s := withPort up fun x => { x with assembler := [0x01], reply := some ⟨[0x0F, 0, 0], false⟩ }
    ((after (.dataWrite .p0 0) s).ports.get .p0).holding = true ∧
    ((after (.dataWrite .p0 9) (after (.dataWrite .p0 0) s)).ports.get .p0).holder = some 9 := by decide

/-- R161: kind 0x10 with length 0 is UNKNOWN, and length 15 makes it MALFORMED at the length byte. -/
theorem test_data_write_refused :
    ((after (.dataWrite .p0 0) (withPort up fun x => { x with assembler := [0x10] })).ports.get .p0).reply.map (·.bytes) = some [0x10, 2, 0] ∧
    ((after (.dataWrite .p0 15) (withPort up fun x => { x with assembler := [0x01] })).ports.get .p0).reply.map (·.bytes) = some [0x01, 1, 0] := by
  decide

/-- R154. -/
theorem test_status_write :
    let s := withPort up fun x => { x with assembler := [1, 0], holding := true, holder := some 3, overrun := true }
    (after (.statusWrite .p0) s).ports.get .p0 = up.ports.get .p0 := by decide

/-- R154: PIF, a reply in output, LAPSED, one notice dropped, holding. -/
theorem test_status_byte :
    let x : Port := { Port.fresh false with holder := some 0, holding := true, outReg := some 1, reply := some ⟨[1], true⟩ }
    { x with attendance := .lapsed, dropped := 1 }.statusByte = 0b11010111 := by decide

/-- R156: the last byte of a notice is read, and the reply waiting is loaded. -/
theorem test_data_read :
    let u := after (.dataRead .p0) (withPort up fun x =>
      { x with outReg := some 7, inProgress := some ⟨[5, 6, 7], 2, false⟩, reply := some ⟨[1, 0, 0], false⟩ })
    (u.ports.get .p0).outReg = some 1 ∧ (u.ports.get .p0).lastRead = 7 := by decide

theorem test_attendance :
    ((after (.attendanceDeadline .p0) (withPort up fun x => { x with attendAt := some 1000 })).ports.get .p0).attendance = .lapsed := by
  decide

/-- R160, R130: the port reset cancels its station's entries. -/
theorem test_port_reset : (after (.portReset .p0) armed).triggers = [] ∧ (after (.portReset .p0) armed).bindings.get .s0 = none ∧
    ((after (.portReset .p0) armed).ports.get .p0).inReset = true := by decide

theorem test_port_reset_release : ((after (.portResetRelease .p0) (withPort up fun _ => Port.fresh true)).ports.get .p0).inReset = false := by
  decide

/-- The reply of a request on port 0. -/
def answer (c : Instr) (s : State) : Option (List Byte) := ((after c s).ports.get .p0).reply.map (·.bytes)

theorem test_nop : answer (.nop .p0) up = some [0x01, 0, 0] := by decide
theorem test_subscribe : answer (.subscribe .p0 3 31) up = some [0x02, 0, 2, 3, 31] ∧ answer (.subscribe .p0 4 0) up = some [0x02, 3, 0] := by
  decide
theorem test_bind : answer (.bind .p0 7) up = some [0x03, 0, 2, 7, 0] ∧ answer (.bind .p0 8) up = some [0x03, 3, 0] := by decide
theorem test_unbind : answer (.unbind .p0 0) armed = some [0x04, 0, 2, 0, 2] ∧ answer (.unbind .p0 1) armed = some [0x04, 5, 0] := by
  decide
theorem test_set_track_mode : answer (.setTrackMode .p0 0 0) (inPassage pass) = some [0x05, 6, 1, 1] ∧
    answer (.setTrackMode .p0 0 1) up = some [0x05, 7, 3, 0, 1, 0xFF] := by decide
theorem test_read_track : (answer (.readTrack .p0 0) (inPassage pass)).map (·.take 8) = some [0x06, 0, 36, 1, 1, 0, 7, 0] := by
  decide
theorem test_read_record : (answer (.readRecord .p0 3) armed).map (·.take 9) = some [0x07, 0, 89, 0, 3, 0x10, 0, 7, 0x11] ∧
    answer (.readRecord .p0 4) armed = some [0x07, 8, 0] := by decide
theorem test_latest_records : answer (.latestRecords .p0 0) (holding up [forming 300, forming 5]) = some [0x08, 0, 5, 2, 0, 5, 1, 44] := by
  decide
theorem test_read_outputs : (answer (.readOutputs .p0) armed).map (·.take 4) = some [0x09, 0, 70, 0x40] := by decide
theorem test_tag_passage : answer (.tagPassage .p0 0 5) (inPassage pass) = some [0x0A, 0, 0] ∧
    answer (.tagPassage .p0 1 5) (inPassage pass) = some [0x0A, 12, 0] := by decide
theorem test_relay : (after (.relay .p0 1 [8, 9]) up).ports.p1.inProgress = some ⟨[0x46, 0, 3, 0, 8, 9], 0, false⟩ ∧
    answer (.relay .p0 4 [8]) up = some [0x0B, 3, 0] := by decide
/-- R145: edges of one time keep the order given, and 0x80 is an active edge of W1. -/
theorem test_inject : ((after (.inject .p0 0 [⟨0x80, 5⟩, ⟨0x00, 5⟩]) (inMode .test [])).tracks.get .t0).injections =
    [⟨w1, true, 1005⟩, ⟨w1, false, 1005⟩] ∧ answer (.inject .p0 0 [⟨0x84, 5⟩]) (inMode .test []) = some [0x0C, 3, 0] := by decide
theorem test_read_faults : answer (.readFaults .p0) up = some ([0x0D, 0, 11] ++ List.replicate 11 0) := by decide
theorem test_release_fault : answer (.releaseFault .p0 1) (up.setFaults ⟨3, none⟩) = some [0x0E, 0, 2, 0, 2] ∧
    answer (.releaseFault .p0 512) up = some [0x0E, 3, 0] := by decide
theorem test_read_time : answer (.readTime .p0) (atTime up 0x01020304) = some [0x0F, 0, 4, 1, 2, 3, 4] := by decide

/-! ### The maintenance line -/

def sent (c : Instr) (s : State) : List LineItem := (after c s).maint.sent

/-- R174: 0x0010 is read, and 0x200 latches TB. -/
theorem test_maint_read : sent (.maintRead 0 0x10) (openLine.setImage [(0x10, 7)]) = [.byte 0x4C, .byte 0, .byte 0x10, .byte 7] ∧
    (after (.maintRead 2 0) openLine).maint.latch = 1000 := by decide
/-- R174: after reset the first 'l' reads address 0; the access code reads 0. -/
theorem test_maint_read_next : sent .maintReadNext (openLine.setImage [(0, 9)]) = [.byte 0x6C, .byte 9] ∧
    sent (.maintRead 1 0xF0) (openLine.setImage [(0x1F0, 9)]) = [.byte 0x4C, .byte 1, .byte 0xF0, .byte 0] := by decide
theorem test_maint_write : (after (.maintWrite 0 0x10 5) openLine).image = [(0x10, 5)] ∧ (after (.maintWrite 0 0x10 5) shutLine).image = [] ∧
    (after (.maintWrite 2 0 5) openLine).image = [] := by decide
/-- R174: a byte that holds no field (0x008), or in part (the start-live byte), is written whole and read back. -/
theorem test_unused_bits : (after (.maintWrite 0 1 0xFF) openLine).image = [(1, 0xFF)] ∧
    (after (.maintWrite 0 8 0xFF) openLine).image = [(8, 0xFF)] ∧
    sent (.maintRead 0 8) (openLine.setImage [(8, 9)]) = [.byte 0x4C, .byte 0, .byte 8, .byte 9] := by decide
theorem test_maint_write_next : (after (.maintWriteNext 5) openLine).image = [(0, 5)] := by decide
/-- R14: on a track that is OUT, a high pin seen ACTIVE goes INACTIVE when its active level becomes low. -/
theorem test_active_level :
    let s := (openLine.setImage [(0x18, 1)]).setConditioner .t0 w1 { Conditioner.fresh true with pin := .active, stuckAt := some 5000 }
    ((after (.maintWrite 0 0x18 0) s).conditioner .t0 w1).pin = .inactive ∧
    ((after (.maintWrite 0 0x18 0) s).conditioner .t0 w1).stuckAt = none := by decide
set_option maxRecDepth 20000 in
theorem test_commit : (after .commit (openLine.setImage [(0x10, 5)])).image = [(0x10, 5), (0x1FF, 5)] ∧
    ((after .commit openLine).maint.commit.map fun w => (w.page, w.pageEndAt)) = some (0, 6000) := by decide
theorem test_commit_page : (after .commitPage (committing page5)).maint.commit.map (fun w => (w.page, w.pageEndAt)) = some (6, 6000) := by
  decide
theorem test_commit_end : (after .commitEnd (committing page5)).maint.commit = some page5 := by decide
set_option maxRecDepth 20000 in
theorem test_checksum : sent .checksum (openLine.setImage [(0x10, 5), (0x1FF, 5)]) = [.byte 0x4B, .byte 0, .byte 5, .byte 1] ∧
    sent .checksum shutLine = [.byte 0x4B, .byte 0, .byte 0, .byte 0] := by decide
theorem test_unknown_command_byte : sent (.unknownCommandByte 0x5A) openLine = [.byte 0x5A] := by decide
/-- R175: the sixth byte of the code decides. -/
theorem test_code_byte : (after (.codeByte 0) (withMaint up fun m => { m with code := [0, 0, 0, 0, 0] })).maint.access = .open ∧
    (after (.codeByte 1) (withMaint up fun m => { m with code := [0, 0, 0, 0, 0] })).maint.access = .shut := by decide
theorem test_line_break : sent .lineBreak (withMaint openLine fun m => { m with parser := .addrHi true }) = [.lineBreak] ∧
    (after .lineBreak (withMaint openLine fun m => { m with parser := .addrHi true })).maint.parser = .idle := by decide
theorem test_framing_error : sent .framingError openLine = [] ∧
    (after .framingError (withMaint up fun m => { m with code := [1, 2] })).maint.code = [] := by decide
/-- R176: a byte received in flight is echoed and discarded. -/
theorem test_byte_in_flight : sent (.byteReceivedInFlight 0x4B) (committing page5) = [.byte 0x4B] := by decide

/-! ### Witnesses: each statement's hypotheses are met, clause by clause -/

theorem witness_IdleStepRunsOwnTime : State.reset.pending = [] ∧ ¬ State.reset.Running ∧
    (let s := withPort up fun x => { x with attendAt := some 1000 }
     s.pending = [] ∧ s.Running ∧ s.dueNow ≠ []) ∧
    (let s := up.setClock { up.clock with refPhase := 8 }
     s.pending = [] ∧ s.Running ∧ s.dueNow = [] ∧ s.clock.clksel = 0 ∧ s.clock.refPhase + 1 < 10) ∧
    (let s := up.setClock { up.clock with refPhase := 9 }
     s.pending = [] ∧ s.Running ∧ s.dueNow = [] ∧ s.clock.clksel = 0 ∧ 10 ≤ s.clock.refPhase + 1) ∧
    (let s := up.setClock { up.clock with clksel := 3, refPhase := 18 }
     s.dueNow = [] ∧ s.clock.clksel = 3 ∧ s.clock.refPhase + 1 < 20) := by decide

theorem witness_ExpiriesActOnlyAtTheirTime : isExpiry (.cameraFire .s0) = true ∧ Instr.cameraFire .s0 ∉ (atTime armed 999).dueNow ∧
    Instr.cameraFire .s0 ∈ armed.dueNow := by decide

/-- NOP meets every premise of the statement's four clauses. -/
theorem witness_WhoMayChangeTimeOutputsStoreAndImage : ∃ u, exec (.nop .p0) up = .next u ∧
    ∀ c ∈ [Instr.powerOn, .deviceReset, .tbStart, .powerLoss, .commitPage, .commitEnd, .commit, .checksum, .maintReadNext],
      Instr.nop .p0 ≠ c := ⟨_, rfl, by decide⟩

theorem witness_ResetsGiveFreshBlocks : off.clock.power = .unpowered ∧ armed.clock.power ≠ .unpowered ∧ armed.maint.commit = none := by
  decide

theorem committing_memory : MemoryInv (committing page5) :=
  { store := by decide, image := by decide
    commit := fun c h => by
      have h' : some page5 = some c := h
      cases h'
      decide }

theorem witness_StoppedCommitMixesOnePage : MemoryInv (committing page5) ∧ (committing page5).maint.commit = some page5 ∧
    (committing page5).clock.power ≠ .unpowered := ⟨committing_memory, by decide, by decide⟩

theorem witness_ReleaseLoadsTheStore : State.reset.clock.power = .inReset ∧ up.clock.power ≠ .inReset := by decide

theorem loading_fresh : FreshBlocks loading :=
  { inputs := fun t i => ⟨true, by cases t <;> rcases i with (_ | _) | (_ | _) <;> rfl⟩
    passages := fun t => by cases t <;> rfl
    nextPassage := rfl
    heads := fun t b => by cases t <;> cases b <;> rfl
    table := rfl
    stations := fun st => by cases st <;> rfl
    units := fun f => by cases f <;> rfl
    inhibit := rfl
    triggers := rfl
    cam := fun st => by cases st <;> rfl
    fire := fun f => by cases f <;> rfl
    tracks := fun t => by cases t <;> rfl
    unitSnapshot := rfl
    ports := fun p => ⟨false, by cases p <;> rfl⟩
    bindings := fun st => by cases st <;> rfl
    faults := rfl
    maint := rfl }

/-- A part being loaded, with every pin high: shown as active where the image has a 1 as active level, with N_FILT 0 and 20. -/
theorem witness_TbStartBeginsCounting : loading.clock.power = .loading ∧ FreshBlocks loading ∧ up.clock.power ≠ .loading ∧
    (let s := loading.setImage [(0x18, 1), (0x1A, 1), (0x21, 20)]
     ((s.inputs.get .t0).get w1).raw = (s.config .t0).activeHigh.get w1 ∧ (s.config .t0).nFilt.get w1 = 0 ∧
     ((s.inputs.get .t0).get (.beam .ha)).raw = (s.config .t0).activeHigh.get (.beam .ha) ∧ (s.config .t0).nFilt.get (.beam .ha) = 20 ∧
     ((s.inputs.get .t0).get (.beam .hb)).raw ≠ (s.config .t0).activeHigh.get (.beam .hb)) :=
  ⟨by decide, loading_fresh, by decide, by decide⟩

/-- Per clause: before TB counts; sampled already and unchanged; a new filter, with N_FILT 20 and 0; a change back; a return to the
conditioned level; the level the filter awaits. -/
theorem witness_RawChangeStartsOrCancelsAFilter : ¬ loading.Running ∧ live.Running ∧
    (let c := (live.setConditioner .t0 w1 { Conditioner.fresh false with sampleTaken := true }).conditioner .t0 w1
     c.sampleTaken = true) ∧ (lowPin live false .inactive none |>.conditioner .t0 w1).raw = false ∧
    (let c := (lowPin live false .inactive none).conditioner .t0 w1
     c.sampleTaken = false ∧ c.raw ≠ true ∧ c.filter = none ∧ (live.config .t0).nFilt.get w1 = 20 ∧ (live.config .t0).activeHigh.get w1 = true) ∧
    (up.config .t1).nFilt.get w1 = 0 ∧ (up.config .t1).activeHigh.get w1 = false ∧
    ((up.inputs.get .t1).get w1).raw ≠ false ∧ ((up.inputs.get .t1).get w1).pin = .inactive ∧
    (let c := (lowPin live true .inactive none).conditioner .t0 w1
     c.raw ≠ false ∧ c.filter = none ∧ c.pin = .inactive) ∧
    (let c := (lowPin live true .inactive (some ⟨true, 990, 1010⟩)).conditioner .t0 w1
     c.raw ≠ false ∧ c.filter ≠ none ∧ c.pin = .inactive) ∧
    (let c := (lowPin live false .inactive (some ⟨true, 990, 1010⟩)).conditioner .t0 w1
     c.raw ≠ true ∧ c.filter ≠ none ∧ c.pin = .inactive) := by decide

/-- Per clause: the sample no longer holds; INACTIVE to ACTIVE; ACTIVE and STUCK to INACTIVE. -/
theorem witness_FilterAcceptDecidesAtTheDeadline : live.Running ∧ (⟨true, 980, 1000⟩ : Filter).deadline = live.clock.tb ∧
    (live.config .t0).activeHigh.get w1 = true ∧
    (let c := (lowPin live false .inactive (some ⟨true, 980, 1000⟩)).conditioner .t0 w1
     c.filter = some ⟨true, 980, 1000⟩ ∧ ¬ ((c.raw == true) = true)) ∧
    (let c := (lowPin live true .inactive (some ⟨true, 980, 1000⟩)).conditioner .t0 w1
     c.filter = some ⟨true, 980, 1000⟩ ∧ (c.raw == true) = true ∧ c.pin = .inactive) ∧
    (let c := (lowPin live false .active (some ⟨false, 980, 1000⟩)).conditioner .t0 w1
     c.filter = some ⟨false, 980, 1000⟩ ∧ (c.raw == true) = false ∧ c.pin = .active) ∧
    (let c := (lowPin live false .stuck (some ⟨false, 980, 1000⟩)).conditioner .t0 w1
     c.filter = some ⟨false, 980, 1000⟩ ∧ (c.raw == true) = false ∧ c.pin = .stuck) := by decide



theorem witness_InjectedEdgeIsAppliedByTheTable :
    let q : List InjectedEdge := [⟨.beam .ha, true, 1000⟩, ⟨w1, true, 1000⟩, ⟨w1, false, 1000⟩]
    (inMode .test q).Running ∧ ((inMode .test q).tracks.get .t0).injections = [⟨.beam .ha, true, 1000⟩] ++ ⟨w1, true, 1000⟩ :: [⟨w1, false, 1000⟩] ∧
    (∀ x ∈ [(⟨.beam .ha, true, 1000⟩ : InjectedEdge)], ¬ (x.input = w1 ∧ x.time = 1000)) := by decide

theorem witness_OpeningEdgeOpensAPassage : up.mode .t0 = .out ∧ live.passages.get .t0 = none ∧ live.mode .t0 ≠ .out := by decide

/-- Per clause: a REVERSED passage; a RUNNING one and its leading sensor, with a full axle queue and with room. -/
theorem witness_CountedEdgesOfAPassage : (let p : Passage := { pass with reversed := true, queue := [], orphan := 3 }
     (inPassage p).mode .t0 ≠ .out ∧ (inPassage p).passages.get .t0 = some p ∧ p.reversed = true) ∧
    (inPassage pass).mode .t0 ≠ .out ∧ (inPassage pass).passages.get .t0 = some pass ∧ pass.reversed = false ∧
    Wheel.w1 = leadingWheel pass.direction ∧ 8 ≤ (List.replicate 8 (500 : Time)).length ∧ ¬ 8 ≤ pass.queue.length := by decide

/-- Per clause, at an edge stamped 4 000 000 with T_PAIR = 3 000 000: an entry just stale; an empty queue; Δ below 1; a sample above
100 000; a seed at the limit of staleness; concordant, discordant and reseeding samples. -/
theorem witness_TrailingEdgesPairOrOrphan :
    (inPassage pass).mode .t0 ≠ .out ∧ Wheel.w2 = trailingWheel pass.direction ∧ pass.reversed = false ∧ pass.orphan + 1 < 3 ∧
    ((live.config .t0).xW2 - (live.config .t0).xW1) * 2000 = 3000000 ∧
    (3000000 : Int) < ((4000000 : Time) - 999999).toInt ∧ ((4000000 : Time) - 1000000).toInt ≤ 3000000 ∧
    ((4000000 : Time) - 4000000).toInt < 1 ∧ (1 ≤ ((4000000 : Time) - 3986000).toInt ∧ 100000 < 1500000000 / 14000) ∧
    1500000000 / 15000 ≤ 100000 ∧ 1500000000 / 3000000 = 500 ∧ pass.vEst = none ∧
    4 * ((79491 : Int) - 80000).natAbs ≤ 80000 ∧ 79873 < 4 * ((30000 : Int) - 79873).natAbs := by decide



def twoOrphans : Passage := { pass with orphan := 2, queue := [500] }

/-- The entry of 500 is stale by one microsecond at 3 000 501. -/
theorem witness_ThirdOrphanReversesThePassage :
    let s := holding (inPassage twoOrphans) [forming 3, planned 4 awaiting]
    s.mode .t0 ≠ .out ∧ s.passages.get .t0 = some twoOrphans ∧ twoOrphans.reversed = false ∧
    Wheel.w2 = trailingWheel twoOrphans.direction ∧ 2 ≤ twoOrphans.orphan ∧ s.config .t0 = cfg ∧
    (∀ e ∈ twoOrphans.queue, (((cfg.xW2 - cfg.xW1) * 2000 : Nat) : Int) < ((3000501 : Time) - e).toInt) ∧ s.DistinctNumbers := by
  refine ⟨by decide, by decide, by decide, by decide, by decide, rfl, ?_, by decide⟩
  intro e h
  have h' : e = 500 := by simpa [twoOrphans] using h
  subst h'
  decide

/-- Per clause: no passage; the quiet deadline due; a record that waits; and after the quiet time a passage that nothing holds open. -/
theorem witness_QuietDeadlineTestsAndCloses : live.passages.get .t0 = none ∧
    (let p : Passage := { pass with quietAt := some 1000 }
     (inPassage p).Running ∧ (inPassage p).passages.get .t0 = some p ∧ p.quietAt = some (inPassage p).clock.tb) ∧
    (let p : Passage := { pass with quietAt := none, quietElapsed := true }
     let s := holding (inPassage p) [planned 3 awaiting]
     s.passages.get .t0 = some p ∧ (∃ r ∈ s.table.records, r.track = .t0 ∧ r.ofOpenPassage = true ∧ r.confirmation = .waiting) ∧
     p.quietElapsed = true ∧ (inPassage p).table.records = [] ∧ ∀ b, (((inPassage p).heads.get .t0).get b).forming = false) :=
  ⟨by decide, by decide, by decide, ⟨planned 3 awaiting, by decide, by decide⟩, by decide, by decide, fun b => by cases b <;> decide⟩

/-- Per clause: role FAR; role NEAR with room; role NEAR with every record open. -/
theorem witness_ActiveEdgeInClearBeginsAHead : live.Running ∧ (unitIn .clear .far).state = .clear ∧ (unitIn .clear .far).role ≠ .near ∧
    (let s := withHead (inPassage pass) (unitIn .clear .near)
     ((s.heads.get .t0).get .ha).role = .near ∧ s.passages.get .t0 = some pass ∧ (s.allocate .t0 pass 1000).isSome = true) ∧
    (let s := withHead (holding (inPassage pass) ((List.range 16).map fun k => forming (k + 1))) (unitIn .clear .near)
     (s.allocate .t0 pass 1000).isNone = true) := by decide

/-- Per clause: a window ahead of now and one already over; GAP without and with a record and with its limit passed; BLOCKED; CLEAR. -/
theorem witness_StripsMergeWithinTheWindow : live.Running ∧
    (((withHead live (unitIn (.covered head0) .far)).heads.get .t0).get .ha).state = .covered head0 ∧
    0 < ((1000 : Time) + BitVec.ofNat 32 50000 - live.clock.tb).toInt ∧ (live.config .t0).m ≠ 0 ∧
    ¬ 0 < ((500 : Time) + BitVec.ofNat 32 0 - live.clock.tb).toInt ∧ (up.config .t1).m = 0 ∧
    head0.limitPassed = false ∧ head0.record = none ∧ (holding (inPassage pass) [forming 3]).DistinctNumbers ∧
    (unitIn .blocked .near).state = .blocked ∧ (unitIn .clear .near).state = .clear := by decide





/-- The far centre of a head of 0 … 2 000 is 1 000, which is the record's expected far time; one of 0 … 200 000 has no candidate. -/
theorem witness_FarHeadConfirmsTheOldestCandidate :
    let s (x : Time) := withHead (holding (inPassage pass) [planned 3 awaiting]) (unitIn (.gap { head0 with tLead := 0 } x 1000) .far)
    (s 2000).Running ∧ (((s 2000).heads.get .t0).get .ha).state = .gap { head0 with tLead := 0 } 2000 (s 2000).clock.tb ∧
    (((s 2000).heads.get .t0).get .ha).role = .far ∧ (s 2000).DistinctNumbers ∧ (unitIn .clear .none).role = .none ∧
    findMatch .t0 7 1000 2000 (s 2000).table.records = some (3, 0) ∧ findMatch .t0 7 100000 2000 (s 2000).table.records = none := by decide

/-- Record 17, PLANNED at 1 006 625 with its deadline ahead; and, per clause, no record; REVERSED; no estimate; a length out of range. -/
theorem witness_NearHeadCloseDecidesItsRecord : let p : Passage := { pass with vEst := some 80000 }
    closing17.Running ∧ ((closing17.heads.get .t0).get .ha).role = .near ∧ closing17.passages.get .t0 = some p ∧ p.reversed = false ∧
    (closing17.tracks.get .t0).snapshot = some snap ∧ closing17.mode .t0 ≠ .out ∧
    closing17.table.records = [{ forming 17 with tLead := 1000000 }] ∧ closing17.DistinctNumbers ∧
    (snap.config.lMin ≤ 3500 * 80000 / 1000000 ∧ 3500 * 80000 / 1000000 ≤ snap.config.lMax) ∧ 3500 * 20000 / 1000000 < snap.config.lMin ∧
    (0 < ((1178750 : Time) - closing17.clock.tb).toInt ∧ ¬ 0 < ((1178750 : Time) - 1178750).toInt) ∧ head0.record = none ∧ pass.vEst = none ∧
    ({ pass with reversed := true } : Passage).reversed = true := by decide

/-- Per clause: in GAP; COVERED in role NONE, NEAR without and with a FORMING record, and FAR. -/
theorem witness_WMaxDeadlineBlocksTheBeam : live.Running ∧ head0.wMaxAt = some live.clock.tb ∧
    (((withHead live (unitIn (.gap head0 900 2000) .near)).heads.get .t0).get .ha).state = .gap head0 900 2000 ∧
    (((withHead live (unitIn (.covered head0) .none)).heads.get .t0).get .ha).role = .none ∧
    (unitIn (.covered head0) .near).role = .near ∧ head0.record = none ∧ (unitIn (.covered head0) .far).role = .far ∧
    (holding (inPassage pass) [forming 3]).DistinctNumbers ∧ forming 3 ∈ (holding (inPassage pass) [forming 3]).table.records ∧
    ({ head0 with record := some 3 } : Head).record = some (forming 3).number ∧ (forming 3).state = .forming := by decide

/-- Per clause: a free slot; a full table with a final record; a full table without one. -/
theorem witness_AllocationTakesASlotAndAFreeNumber : (holding live [forming 30]).table.records.length < 16 ∧
    ((List.range 16).map fun k => { forming (k + 1) with state := if k = 3 then .done else .forming }).length = 16 ∧
    (let s := holding live ((List.range 16).map fun k => { forming (k + 1) with state := if k = 3 then .done else .forming })
     (s.allocate .t0 pass 1).isSome = true) := by decide

/-- Per clause: no far head under way; one under way. -/
theorem witness_ConfirmationDeadlineMakesMissingOrOverdue :
    let r := { planned 3 awaiting with confirmAt := some 1000 }
    let s := holding (inPassage pass) [r]
    s.Running ∧ r ∈ s.table.records ∧ s.DistinctNumbers ∧ r.confirmation = .waiting ∧ r.confirmAt = some s.clock.tb ∧
    (let h := ((withHead s (unitIn (.covered head0) .far)).heads.get .t0).get .ha
     h.role = .far ∧ h.forming = true) :=
  ⟨by decide, by decide, by decide, by decide, by decide, by decide⟩

/-- S0 of record 17 as planning finds it: the answer for settings `c` in state `s` at `v` mm/s. -/
def answer17 (s : State) (v : Nat) (c : StationConfig) : CameraOutcome × FlashResult :=
  let a := s.decideStation .t0 snap .a v 1001750 .s0 c
  (a.camera, a.flash)

/-- Per clause, for S0 with its trigger at 1 075 550: not enabled; not attended; a time to go of 3 000 000; T_SETUP missed by 1 and met;
busy by a firing 19 999 before and by an entry 19 999 after; no policy; in TEST; free units; units not free under REQUIRED and under
PREFERRED; 31 entries listed, with room for one more and not for two. -/
theorem witness_StationIsDecidedByTheFirstStep :
    let s := closing17
    let test := s.setTracks (s.tracks.set .t0 (control .test []))
    let inhibited := s.setInhibit ⟨true, true, true⟩
    let crowded := s.setTriggers (List.replicate 31 ⟨2000000, .cam .s7, 1, .s7⟩)
    answer17 s 80000 { sta0 with enabled := false } = (.notServed, .notUsed) ∧
    (s.bindings.get .s0 = some .p1 ∧ (s.ports.get .p1).attendance = .attended) ∧
    answer17 (s.setBindings up.bindings) 80000 sta0 = (.unattended, .notUsed) ∧
    (2000000 < ((16000 - 10000) * 1000000 + 1000) / 2000 ∧ ((16000 - 10000) * 1000000 + 40000) / 80000 = 75000) ∧
    answer17 s 2000 sta0 = (.missedHorizon, .notUsed) ∧
    answer17 (atTime s 1075051) 80000 sta0 = (.missedLate, .notUsed) ∧ answer17 (atTime s 1075050) 80000 sta0 = (.pending, .booked) ∧
    answer17 (s.setStations (s.stations.set .s0 ⟨some 1055551, some 3055551⟩)) 80000 sta0 = (.missedBusy, .notUsed) ∧
    answer17 (s.setTriggers [⟨1095549, .cam .s0, 3, .s0⟩]) 80000 sta0 = (.missedBusy, .notUsed) ∧
    answer17 s 80000 { sta0 with policy := .none } = (.pending, .notUsed) ∧ answer17 test 80000 sta0 = (.pending, .suppressed) ∧
    answer17 s 80000 sta0 = (.pending, .booked) ∧ answer17 inhibited 80000 sta0 = (.conflict, .unavailable) ∧
    answer17 inhibited 80000 { sta0 with policy := .preferred } = (.pending, .unavailable) ∧
    answer17 crowded 80000 { sta0 with policy := .none } = (.pending, .notUsed) ∧
    answer17 crowded 80000 sta0 = (.missedListFull, .notUsed) := by decide

/-- Per clause: a plan that is PENDING, one without room in the list, and one of another outcome, for record 17 in the table and S0 bound. -/
theorem witness_DecidedStationReservesAndReports :
    ({ camera := .pending, flash := .booked, trigger := 1075550, flashTime := 1076750 } : StationPlan).camera = .pending ∧
    ({ camera := .missedListFull, flash := .notUsed, trigger := 1075550, flashTime := 1076750 } : StationPlan).camera = .missedListFull ∧
    ({ camera := .missedBusy, flash := .notUsed, trigger := 1075550, flashTime := 1076750 } : StationPlan).camera ≠ .pending ∧
    closing17.table.records.map (·.number) = [17] ∧ closing17.bindings.get .s0 = some .p1 := by decide

theorem witness_CameraFireExposesAndReports : armed.Running ∧ armed.triggers = [] ++ cam0 1000 :: [fire2 2200] ∧
    (cam0 1000).fireAt = armed.clock.tb ∧ armed.DistinctNumbers ∧ planned 3 awaiting ∈ armed.table.records ∧
    (planned 3 awaiting).number = (cam0 1000).record ∧ awaiting ∈ (planned 3 awaiting).entries ∧ awaiting.station = (cam0 1000).station ∧
    ((planned 3 awaiting).entries.map (·.station)).Nodup := by decide

theorem witness_FlashFireDischargesAndReports : lit.Running ∧ lit.triggers = [] ++ fire2 2200 :: [] ∧ (fire2 2200).fireAt = lit.clock.tb ∧
    lit.DistinctNumbers ∧ lit.table.records = [planned 3 { awaiting with camera := .fired }] ∧
    (planned 3 awaiting).number = (fire2 2200).record := by decide

theorem witness_StuckPulseChargeAndAgeDeadlines : live.Running ∧
    (let c := ((live.setConditioner .t0 w1 { Conditioner.fresh true with pin := .active, stuckAt := some 1000 }).inputs.get .t0).get w1
     c.stuckAt = some live.clock.tb ∧ c.pin = .active) ∧
    (let c := ((live.setConditioner .t0 w1 { Conditioner.fresh true with injection := .active, injectionStuckAt := some 1000 }).inputs.get .t0).get w1
     c.injectionStuckAt = some live.clock.tb ∧ c.injection = .active) ∧
    (up.setOutputs { up.outputs with cam := up.outputs.cam.set .s0 (some 1000) }).outputs.cam.get .s0 = some up.clock.tb ∧
    (up.setOutputs { up.outputs with fire := up.outputs.fire.set .u0 (some 1000) }).outputs.fire.get .u0 = some up.clock.tb ∧
    (charge charging).Running ∧ ((charge charging).units.get .u0).chargeAt = some 1000 ∧
    ((charge charging).units.get .u0).ageOutAt = some (charge charging).clock.tb ∧
    ((up.setStations (up.stations.set .s0 ⟨some 900, some 1000⟩)).stations.get .s0).ageOutAt = some up.clock.tb := by decide

theorem witness_RemovalWithoutFiringCancels : armed.DistinctNumbers := by decide

/-- Per clause: before TB counts; released and not yet sampled; asserted and not yet sampled; sampled. -/
theorem witness_FlashInhibitStopsAndFreesTheUnits : ¬ loading.Running ∧ up.Running ∧ up.inhibit.sampleTaken = false ∧ up.inhibit.asserted = false ∧
    (up.setInhibit ⟨true, true, false⟩).inhibit.asserted = true ∧ (up.setInhibit ⟨true, true, true⟩).inhibit.sampleTaken = true := by decide

/-- Per clause: 32 notices queued and 31; a message in progress; an idle port. -/
theorem witness_NoticesAreRoutedQueuedOrDropped : 32 ≤ ({ Port.fresh false with queue := List.replicate 32 [] } : Port).queue.length ∧
    ¬ 32 ≤ ({ Port.fresh false with queue := List.replicate 31 [] } : Port).queue.length ∧ (Port.fresh true).inReset = true ∧
    ({ Port.fresh false with inProgress := some ⟨[1, 2, 3], 0, false⟩ } : Port).inProgress ≠ none ∧
    (Port.fresh false).attendance = .attended ∧ (Port.fresh false).inProgress = none ∧ (Port.fresh false).reply = none := by decide

/-- Per clause: IN_RESET; a byte in the holder; holding; an incomplete frame; a complete one with a reply waiting and without. -/
theorem witness_DataWriteAssemblesFrames : up.Running ∧ (Port.fresh true).inReset = true ∧
    ({ Port.fresh false with holding := true, holder := some 1 } : Port).holder ≠ none ∧
    ({ Port.fresh false with holding := true } : Port).holder = none ∧ (up.ports.get .p0).holding = false ∧
    frameComplete ([] ++ [(1 : Byte)]) = false ∧ frameComplete ([(1 : Byte)] ++ [0]) = true ∧ frameComplete ([(1 : Byte)] ++ [15]) = true ∧
    frameComplete ([(2 : Byte), 14] ++ [0]) = false ∧ frameComplete ([(3 : Byte), 1] ++ [0]) = true ∧
    ({ Port.fresh false with reply := some ⟨[1, 0, 0], true⟩ } : Port).reply ≠ none := by decide

/-- Per clause: an unknown kind with length 15 and 14; a length a kind allows and one it does not. -/
theorem witness_FrameIsJudgedAndAnswered :
    ((withPort up fun x => { x with assembler := [1, 0] }).ports.get .p0).assembler = (1 : Byte) :: 0 :: [] ∧
    15 < (16 : Byte).toNat ∧ 15 ≤ (15 : Byte).toNat ∧ (14 : Byte).toNat < 15 ∧ kindByte .nop = 1 ∧ RequestKind.nop ≠ .setTrackMode ∧
    (1 : Byte).toNat ∉ [0] ∧ (0 : Byte).toNat ∈ [0] ∧ (3 : Byte).toNat ≠ 2 := by decide

theorem witness_StatusWriteClearsTheInputSide : up.Running ∧ (up.ports.get .p0).inReset = false ∧ ¬ loading.Running ∧
    ((withPort up fun _ => Port.fresh true).ports.get .p0).inReset = true := by decide

/-- Per clause: IN_RESET; nothing in output; in the middle of a message; its last byte with a frame held, a reply waiting, a notice
queued, and nothing. -/
theorem witness_DataReadDrainsTheMessage : up.Running ∧ (Port.fresh true).inReset = true ∧ (up.ports.get .p0).outReg = none ∧
    (let m : Message := ⟨[5, 6, 7], 1, false⟩
     m.position + 1 < m.bytes.length ∧ m.bytes[m.position]? = some 6) ∧
    (let m : Message := ⟨[5, 6, 7], 2, true⟩
     m.bytes.length ≤ m.position + 1 ∧ m.isReply = true) ∧ (⟨[1, 0, 0], false⟩ : Reply).inOutput = false := by decide

theorem witness_AttendanceLapsesAndPortsReset : up.Running ∧ ¬ loading.Running ∧ (up.ports.get .p0).inReset = false ∧
    ((withPort up fun x => { x with attendAt := some 1000 }).ports.get .p0).attendAt = some up.clock.tb ∧
    ((withPort up fun _ => Port.fresh true).ports.get .p0).inReset = true := by decide

theorem witness_RequestIsTheWritingOfItsFrame : requestBytes (.bind .p1 3) = some (.p1, [0x03, 1, 3]) := by decide

/-- A ready port on a running part, with a record in the table and none of another number. -/
theorem witness_ReadingRequestsAnswerAndChangeNothing : armed.Running ∧ (armed.ports.get .p0).Ready ∧ 1 < (2 : Byte).toNat ∧
    (∀ r ∈ armed.table.records, r.number ≠ (4 : BitVec 16).toNat) ∧ armed.DistinctNumbers ∧
    (∀ r ∈ armed.table.records, r.number = (3 : BitVec 16).toNat ∧ r.entries.length ≤ 8) := by decide

theorem witness_ReadingBodiesHaveTheirLayout : (planned 3 awaiting).entries.length ≤ 8 ∧ (List.replicate 8 awaiting).length ≤ 8 := by decide

/-- Per clause: masks in and out of range; a free station, one's own and another's; masks of 511 and 512; no passage, a tagged and an
untagged one. -/
theorem witness_RegistersOfRequestsAreUpdated : armed.Running ∧ (armed.ports.get .p1).Ready ∧ (3 : Byte).toNat < 4 ∧ (31 : Byte).toNat < 32 ∧
    4 ≤ (4 : Byte).toNat ∧ 8 ≤ (8 : Byte).toNat ∧ armed.bindings.get .s1 = none ∧ armed.bindings.get .s0 = some .p0 ∧ PortId.p0 ≠ .p1 ∧
    (511 : BitVec 16).toNat < 512 ∧ 512 ≤ (512 : BitVec 16).toNat ∧ 1 < (2 : Byte).toNat ∧ up.passages.get .t0 = none ∧
    (armed.passages.get .t0).map (·.tag) = some none ∧ ({ pass with tag := some 5 } : Passage).tag ≠ none := by decide

theorem witness_UnbindFreesTheStation : armed.Running ∧ (armed.ports.get .p0).Ready ∧ armed.bindings.get .s0 = some .p0 ∧
    armed.bindings.get .s1 ≠ some .p0 ∧ 8 ≤ (8 : Byte).toNat := by decide

theorem witness_ModeChangesTakeTheirSteps : up.mode .t0 = .out ∧ live.mode .t0 = .live ∧ (inMode .test []).mode .t0 = .test := by decide

/-- Per clause: bytes out of range; the mode held; BUSY; a failed check; an accepted change from LIVE. -/
theorem witness_SetTrackModeJudgesAndChanges : live.Running ∧ (live.ports.get .p0).Ready ∧ 1 < (2 : Byte).toNat ∧ 2 < (3 : Byte).toNat ∧
    Mode.live = live.mode .t0 ∧ (inPassage pass).passages.get .t0 ≠ none ∧ Mode.test ≠ live.mode .t0 ∧ live.passages.get .t0 = none ∧
    Mode.live ≠ up.mode .t0 ∧ up.validate .t0 = some { code := 1, item := 0xFF, holds := false } := by decide

/-- An image whose track 0 passes every check; with its first byte cleared, and with T_QUIET below 50, it does not. -/
def image0 : Memory :=
  [(0x000, 1), (0x002, 1), (0x003, 0xF4), (0x010, 7), (0x011, 0xD0), (0x012, 0xD), (0x013, 0xAC), (0x014, 0x27), (0x015, 0x10),
   (0x016, 0x5D), (0x017, 0xC0), (0x025, 200), (0x029, 150), (0x02A, 3), (0x02B, 0x20), (0x02D, 3), (0x02E, 0xD), (0x02F, 0x40),
   (0x031, 50), (0x034, 7), (0x035, 0xD0)]

theorem witness_ValidationMakesEveryCheck : (up.setImage image0).validate .t0 = none ∧ Memory.read image0 0 = 1 ∧
    Memory.read up.image 0 ≠ 1 ∧ (takeSnapshot (Memory.write image0 0x031 49) .t0).config.tQuiet = 49 := by decide

/-- Per clause: a target of no port; IN_RESET; 32 notices queued; another port; the port itself. -/
theorem witness_RelayOffersItsBytesToTheTarget : up.Running ∧ (up.ports.get .p0).Ready ∧ 1 ≤ [(8 : Byte)].length ∧ [(8 : Byte)].length ≤ 12 ∧
    3 < (4 : Byte).toNat ∧ (Port.fresh true).inReset = true ∧ (up.ports.get .p1).attendance = .attended ∧
    (up.ports.get .p1).queue.length < 32 ∧ 32 ≤ ({ Port.fresh false with queue := List.replicate 32 [] } : Port).queue.length := by decide

/-- Per clause: a track of none; offsets that fall; a track in LIVE; 16 edges exceeded and met. -/
theorem witness_InjectQueuesTimedEdges : (inMode .test []).Running ∧ ((inMode .test []).ports.get .p0).Ready ∧
    1 ≤ [(⟨0x80, 1⟩ : EdgeArg)].length ∧ 1 < (2 : Byte).toNat ∧ ¬ [(⟨0x80, 2⟩ : EdgeArg), ⟨0, 1⟩].Pairwise (fun a b => a.offset.toNat ≤ b.offset.toNat) ∧
    [(⟨0x80, 1⟩ : EdgeArg), ⟨0, 1⟩].Pairwise (fun a b => a.offset.toNat ≤ b.offset.toNat) ∧ live.mode .t0 ≠ .test ∧
    (inMode .test []).mode .t0 = .test ∧ 16 < (List.replicate 16 (⟨w1, true, 2000⟩ : InjectedEdge)).length + 1 ∧
    (List.replicate 15 (⟨w1, true, 2000⟩ : InjectedEdge)).length + 1 ≤ 16 := by decide

/-- Per clause: not counting; in flight; the code awaited, short of its sixth byte and at it; a byte that begins no command. -/
theorem witness_LineBytesAreEchoedAndCollected : ¬ loading.Running ∧ up.Running ∧ (committing page5).maint.commit ≠ none ∧
    up.maint.commit = none ∧ up.maint.access = .waitingCode ∧ ([1, 2, 3, 4] ++ [(5 : Byte)]).length < 6 ∧ 6 ≤ ([1, 2, 3, 4, 5] ++ [(6 : Byte)]).length ∧
    openLine.maint.access ≠ .waitingCode ∧ openLine.maint.parser = .idle ∧ (0x5A : Byte) ∉ [0x4C, 0x53, 0x6C, 0x73, 0x43, (0x4B : Byte)] := by decide

/-- Per clause: OPEN and SHUT; addresses at the image's end, at the access code, in the window and beyond it. -/
theorem witness_LineReadsImageAndWindow : openLine.Running ∧ openLine.maint.commit = none ∧ openLine.maint.parser = .idle ∧
    openLine.maint.access = .open ∧ shutLine.maint.access = .shut ∧ (BitVec.ofNat 10 (256 * 1 + 0xF0)).toNat = 0x1F0 ∧
    (BitVec.ofNat 10 (256 * 6 + 0)) = 512 ∧ (BitVec.ofNat 10 (256 * 3 + 255)).toNat - 512 = 511 := by decide

theorem open_memory (a : Access) : MemoryInv (withMaint up fun m => { m with access := a }) :=
  { store := ⟨List.Pairwise.nil, fun c h => nomatch h⟩, image := ⟨List.Pairwise.nil, fun c h => nomatch h⟩
    commit := fun c h => by
      have h' : (none : Option CommitWrite) = some c := h
      cases h' }

/-- Per clause: SHUT and beyond the image; an address that is no active level; the active level of 0W1, whose byte goes from 0 to 1; two
bytes that differ in the unused bits of a flash set, and two at an address that holds no field. -/
theorem witness_LineWritesTheImage : openLine.Running ∧ openLine.maint.commit = none ∧ openLine.maint.parser = .idle ∧ MemoryInv openLine ∧
    MemoryInv shutLine ∧ 512 ≤ (BitVec.ofNat 10 (256 * 2 + 0)).toNat ∧ (∀ t i, trackBase t + 8 + inputCode i ≠ 0x010) ∧
    openLine.mode .t0 = .out ∧ trackBase .t0 + 8 + inputCode w1 = (BitVec.ofNat 10 (256 * 0 + 0x18)).toNat ∧
    ¬ (Memory.read openLine.image 0x18 = 0 ↔ (1 : Byte) = 0) ∧ (0x41 : Byte) &&& fieldBits 0x093 = 0x81 &&& fieldBits 0x093 ∧
    (0x41 : Byte) &&& fieldBits 0x008 = 0x82 &&& fieldBits 0x008 :=
  ⟨by decide, by decide, by decide, open_memory .open, open_memory .shut, by decide,
   fun t i => by rcases i with w | b <;> [cases w; cases b] <;> cases t <;> decide, by decide, by decide, by decide, by decide, by decide⟩

/-- Per clause: 'C' in OPEN and in SHUT; a page write ending at page 5 and at page 31. -/
theorem witness_CommitWritesTheStorePageByPage : (committing page5).Running ∧ MemoryInv (committing page5) ∧ MemoryInv openLine ∧
    openLine.maint.commit = none ∧ openLine.maint.parser = .idle ∧ openLine.maint.access = .open ∧ shutLine.maint.access = .shut ∧
    page5.pageEndAt = (committing page5).clock.tb ∧ page5.page < 31 ∧ (committing { page5 with page := 31 }).maint.commit.map (·.page) = some 31 :=
  ⟨by decide, committing_memory, open_memory .open, by decide, by decide, by decide, by decide, by decide, by decide, by decide⟩

/-! ### A state between events that meets every invariant: a passage in LIVE, a record waiting, a camera and a flash listed -/

theorem armed_clock : ClockInv armed := { held := fun h => absurd (by decide) h, phase := fun _ => by decide }

theorem armed_memory : MemoryInv armed := 
  { store := by decide, image := by decide
    commit := fun c h => by
      have h' : (none : Option CommitWrite) = some c := h
      cases h' }

theorem armed_table : TableInv armed :=
  { size := by decide, distinct := by decide, numbers := by decide, next := by decide, waiting := by decide, settled := by decide }

theorem armed_lists : ListsInv armed :=
  { size := by decide, ordered := by decide
    injections := fun t => by cases t <;> decide
    script := fun t => by cases t <;> decide
    bookings := fun u => by cases u <;> decide
    booked := fun u => by cases u <;> decide
    held := fun h => absurd (by decide) h }

theorem armed_inhibit : InhibitInv armed := { asserted := fun h => absurd h (by decide), released := fun _ u => by cases u <;> decide }

theorem armed_tracks : TracksInv armed :=
  { idle := fun t => by cases t <;> decide
    snapshot := fun t => by cases t <;> decide
    script := fun t h => by cases t <;> exact absurd rfl h
    units := ⟨fun _ => ⟨.t0, by decide⟩, fun _ => by decide⟩
    spacing := fun t x h => by
      cases t
      · have h' : some snap = some x := h
        cases h'
        decide
      · have h' : (none : Option TrackSnapshot) = some x := h
        cases h' }

theorem pass_sound : pass.Sound :=
  { number := by decide, leading := by decide, trailing := by decide, accepted := by decide, rejected := by decide, heads := by decide
    estimate := fun v h => absurd h (by simp [pass])
    discord := by decide, orphan := by decide, queue := by decide, reversed := fun h => absurd h (by decide) }

theorem armed_passages : PassagesInv armed :=
  { next := by decide
    passages := fun t p h => by
      cases t
      · have h' : some pass = some p := h
        cases h'
        exact pass_sound
      · have h' : (none : Option Passage) = some p := h
        cases h' }

theorem fresh_sound (x : Bool) : (Port.fresh x).Sound :=
  { idle := rfl, assembler := by simp [Port.fresh], queue := by simp [Port.fresh], dropped := by simp [Port.fresh]
    held := fun h => absurd rfl h, frame := rfl, boundary := fun _ => ⟨rfl, rfl, rfl⟩
    output := fun m h => absurd h (by simp [Port.fresh])
    replyOut := by simp [Port.fresh]
    messages := by simp [Port.fresh] }

theorem armed_ports : PortsInv armed :=
  { sound := fun p => by cases p <;> exact fresh_sound false
    fresh := fun h => absurd (by decide) h }

/-- The step from it is the CAMERA entry's firing, which is due. -/
theorem armed_steps : armed.pending = [] ∧ armed.dueNow = [.cameraFire .s0] := by decide

theorem witness_EveryStepKeeps : ∃ u, step armed = .next u ∧ ClockInv armed ∧ MemoryInv armed ∧ TracksInv armed ∧ PassagesInv armed ∧
    TableInv armed ∧ ListsInv armed ∧ InhibitInv armed ∧ PortsInv armed := by
  refine ⟨after (.cameraFire .s0) armed, ?_, armed_clock, armed_memory, armed_tracks, armed_passages, armed_table, armed_lists, armed_inhibit,
    armed_ports⟩
  have h : step armed = armed.runOwnTime := by rw [step, armed_steps.1]
  rw [h, State.runOwnTime, if_pos (by decide), armed_steps.2]
  rfl

end Sys2Proof.Tests
end

section
/-! PROOFS. Wheel edges taken by an open passage (chapter 2): what an edge moves, what it counts, and how a trailing edge pairs and judges
its speed sample. -/

namespace Sys2Proof.Machine

/-! ### What an accepted edge moves (R40) -/

section MovedBy

variable (p : Passage) (c : TrackConfig) (stamp : Time)

theorem Passage.touch_eq_movedBy : p.touch c stamp = p.movedBy c stamp := by
  simp [Passage.touch, Passage.movedBy, isAfter, signedDiff, quietDeadline, plus]

/-- The edge moves the last edge time and the quiet deadline, and no other field. -/
theorem Passage.movedBy_eq : p.movedBy c stamp =
    { p with lastEdge := (p.movedBy c stamp).lastEdge, quietAt := (p.movedBy c stamp).quietAt
             quietElapsed := (p.movedBy c stamp).quietElapsed } := by
  unfold Passage.movedBy
  split <;> rfl

@[simp] theorem Passage.movedBy_direction : (p.movedBy c stamp).direction = p.direction := by rw [movedBy_eq]
@[simp] theorem Passage.movedBy_reversed : (p.movedBy c stamp).reversed = p.reversed := by rw [movedBy_eq]
@[simp] theorem Passage.movedBy_leading : (p.movedBy c stamp).leading = p.leading := by rw [movedBy_eq]
@[simp] theorem Passage.movedBy_trailing : (p.movedBy c stamp).trailing = p.trailing := by rw [movedBy_eq]
@[simp] theorem Passage.movedBy_accepted : (p.movedBy c stamp).accepted = p.accepted := by rw [movedBy_eq]
@[simp] theorem Passage.movedBy_rejected : (p.movedBy c stamp).rejected = p.rejected := by rw [movedBy_eq]
@[simp] theorem Passage.movedBy_vEst : (p.movedBy c stamp).vEst = p.vEst := by rw [movedBy_eq]
@[simp] theorem Passage.movedBy_discord : (p.movedBy c stamp).discord = p.discord := by rw [movedBy_eq]
@[simp] theorem Passage.movedBy_orphan : (p.movedBy c stamp).orphan = p.orphan := by rw [movedBy_eq]
@[simp] theorem Passage.movedBy_queue : (p.movedBy c stamp).queue = p.queue := by rw [movedBy_eq]

end MovedBy

/-! ### The kinds of edge of an open passage -/

theorem trailingWheel_ne_leadingWheel (d : Direction) : trailingWheel d ≠ leadingWheel d := by
  cases d <;> decide

section Edges

variable {s : State} {t : Track} {p : Passage} (hmode : s.mode t ≠ .out) (hp : s.passages.get t = some p)
include hmode hp

theorem wheelEdge_of_open (w : Wheel) (active : Bool) (stamp : Time) :
    s.wheelEdge t w active stamp = s.takeWheelEdge t w active stamp p := by
  simp only [State.wheelEdge, if_neg hmode, hp]

theorem wheelEdge_inactive (w : Wheel) (stamp : Time) :
    s.wheelEdge t w false stamp = s.setPassages (s.passages.set t (some (p.movedBy (s.config t) stamp))) := by
  simp [wheelEdge_of_open hmode hp, State.takeWheelEdge, Passage.touch_eq_movedBy]

theorem wheelEdge_active_reversed (hrev : p.reversed = true) (w : Wheel) (stamp : Time) :
    s.wheelEdge t w true stamp = s.setPassages (s.passages.set t
      (some ((p.movedBy (s.config t) stamp).countReversed (w == leadingWheel p.direction)))) := by
  simp [wheelEdge_of_open hmode hp, State.takeWheelEdge, Passage.touch_eq_movedBy, hrev]

theorem wheelEdge_leading (hrun : p.reversed = false) (stamp : Time) :
    s.wheelEdge t (leadingWheel p.direction) true stamp =
      s.setPassages (s.passages.set t (some ((p.movedBy (s.config t) stamp).leadingEdge stamp))) := by
  simp [wheelEdge_of_open hmode hp, State.takeWheelEdge, Passage.touch_eq_movedBy, hrun]

theorem wheelEdge_trailing (hrun : p.reversed = false) {stamp : Time}
    (hfew : (p.movedBy (s.config t) stamp).completesOrphanRun (s.config t) stamp = false) :
    s.wheelEdge t (trailingWheel p.direction) true stamp =
      s.setPassages (s.passages.set t (some ((p.movedBy (s.config t) stamp).trailingEdge (s.config t) stamp))) := by
  simp [wheelEdge_of_open hmode hp, State.takeWheelEdge, Passage.touch_eq_movedBy, hrun, hfew, trailingWheel_ne_leadingWheel]

end Edges

/-! ### Counted edges (R26, R38) -/

theorem Passage.leadingEdge_eq (p : Passage) (stamp : Time) : p.leadingEdge stamp =
    { p with leading := min (p.leading + 1) 65535
             rejected := if 8 ≤ p.queue.length then min (p.rejected + 1) 65535 else p.rejected
             queue := (if 8 ≤ p.queue.length then p.queue.tail else p.queue) ++ [stamp] } := by
  by_cases hfull : 8 ≤ p.queue.length <;> simp [Passage.leadingEdge, axleLimit, satSucc, hfull]

/-- Settles O14: by the three kinds of edge, each by its equation. -/
theorem countedEdgesOfAPassage : Obligations.CountedEdgesOfAPassage := by
  intro s t w active stamp p q leaves hmode hp
  refine ⟨fun hrev => ?_, fun _ hoff => ?_, fun hrun hon hw => ?_⟩
  · cases active with
    | false => exact wheelEdge_inactive hmode hp w stamp
    | true =>
      refine (wheelEdge_active_reversed hmode hp hrev w stamp).trans ?_
      by_cases hw : w = leadingWheel p.direction <;> simp [Passage.countReversed, satSucc, hw, q]
  · subst hoff
    exact wheelEdge_inactive hmode hp w stamp
  · subst hon hw
    refine (wheelEdge_leading hmode hp hrun stamp).trans ?_
    simp [Passage.leadingEdge_eq, q]

/-! ### A trailing edge: stale entries, then an orphan or a pairing (R27 to R29) -/

/-- The stale entries leave the queue up to the first entry that is not stale. -/
theorem freshQueue_append {limit : Nat} {stamp : Time} {stale fresh : List Time}
    (hstale : ∀ e ∈ stale, (limit : Int) < (stamp - e).toInt) (hfresh : ∀ e ∈ fresh.head?, (stamp - e).toInt ≤ limit) :
    freshQueue limit stamp (stale ++ fresh) = fresh := by
  have hdrop : freshQueue limit stamp (stale ++ fresh) = freshQueue limit stamp fresh :=
    List.dropWhile_append_of_pos fun e he => decide_eq_true (hstale e he)
  rw [hdrop]
  cases fresh with
  | nil => rfl
  | cons e rest =>
    have hkept : ¬ (limit : Int) < signedDiff stamp e := not_lt.mpr (hfresh e rfl)
    exact List.dropWhile_cons_of_neg (by simpa using hkept)

/-- The passage once a trailing edge is counted, its `stale` oldest entries are rejected and `queue` is what is left of the axle queue. -/
def Passage.afterStale (p : Passage) (stale : Nat) (queue : List Time) : Passage :=
  { p with trailing := satSucc p.trailing, rejected := satAdd p.rejected stale, queue := queue }

/-- Counting the stale entries and then one more saturates no earlier than counting them together. -/
theorem Passage.afterStale_reject (p : Passage) (stale : Nat) (queue : List Time) : (p.afterStale stale queue).reject =
    { p.afterStale stale queue with rejected := min (p.rejected + stale + 1) 65535 } := by
  have hsat : satSucc (satAdd p.rejected stale) = min (p.rejected + stale + 1) 65535 := by
    simp only [satSucc, satAdd]
    omega
  simp [Passage.reject, Passage.afterStale, hsat]

section TrailingEdge

variable {p : Passage} {c : TrackConfig} {stamp : Time} {stale : List Time}

/-- No fresh entry: the edge is an orphan (R28). -/
theorem Passage.trailingEdge_orphan (hfresh : freshQueue (pairingLimit c) stamp p.queue = []) (horphan : p.orphan + 1 < 3) :
    p.trailingEdge c stamp = { (p.afterStale p.queue.length []).reject with orphan := p.orphan + 1 } := by
  have hmin : min 3 (p.orphan + 1) = p.orphan + 1 := by omega
  simp [Passage.trailingEdge, hfresh, Passage.afterStale, Passage.reject, hmin]

/-- A fresh entry: the edge pairs with the oldest one (R29). -/
theorem Passage.trailingEdge_pair {e : Time} {rest : List Time} (hqueue : p.queue = stale ++ e :: rest)
    (hfresh : freshQueue (pairingLimit c) stamp p.queue = e :: rest) :
    p.trailingEdge c stamp = (p.afterStale stale.length rest).pair c stamp e := by
  have hcount : p.queue.length - (e :: rest).length = stale.length := by simp [hqueue]
  simp [Passage.trailingEdge, hfresh, Passage.afterStale, ← hcount]

theorem Passage.completesOrphanRun_of_few (horphan : p.orphan + 1 < 3) : p.completesOrphanRun c stamp = false := by
  have : ¬ 3 ≤ p.orphan + 1 := by omega
  simp [Passage.completesOrphanRun, this]

theorem Passage.completesOrphanRun_of_fresh {e : Time} {rest : List Time}
    (hfresh : freshQueue (pairingLimit c) stamp p.queue = e :: rest) : p.completesOrphanRun c stamp = false := by
  simp [Passage.completesOrphanRun, hfresh]

end TrailingEdge

section TrailingWheelEdge

variable {s : State} {t : Track} {p : Passage} {stamp : Time} {stale : List Time}
variable (hmode : s.mode t ≠ .out) (hp : s.passages.get t = some p) (hrun : p.reversed = false)
variable (hstale : ∀ e ∈ stale, (pairingLimit (s.config t) : Int) < (stamp - e).toInt)
include hmode hp hrun hstale

/-- A trailing edge that finds stale entries alone, short of a reversal (R27, R28). -/
theorem wheelEdge_trailing_orphan (hqueue : p.queue = stale) (horphan : p.orphan + 1 < 3) :
    s.wheelEdge t (trailingWheel p.direction) true stamp = s.setPassages (s.passages.set t
      (some { ((p.movedBy (s.config t) stamp).afterStale stale.length []).reject with orphan := p.orphan + 1 })) := by
  have hfresh : freshQueue (pairingLimit (s.config t)) stamp (p.movedBy (s.config t) stamp).queue = [] := by
    rw [Passage.movedBy_queue, hqueue, ← List.append_nil stale]
    exact freshQueue_append hstale nofun
  have horphan' : (p.movedBy (s.config t) stamp).orphan + 1 < 3 := by simpa using horphan
  rw [wheelEdge_trailing hmode hp hrun (Passage.completesOrphanRun_of_few horphan'), Passage.trailingEdge_orphan hfresh horphan',
    Passage.movedBy_orphan, Passage.movedBy_queue, hqueue]

/-- A trailing edge that finds the entry `e` not stale pairs with it (R27, R29). -/
theorem wheelEdge_trailing_pair {e : Time} {rest : List Time} (hqueue : p.queue = stale ++ e :: rest)
    (hkept : (stamp - e).toInt ≤ (pairingLimit (s.config t) : Int)) :
    s.wheelEdge t (trailingWheel p.direction) true stamp = s.setPassages (s.passages.set t
      (some (((p.movedBy (s.config t) stamp).afterStale stale.length rest).pair (s.config t) stamp e))) := by
  have hqueue' : (p.movedBy (s.config t) stamp).queue = stale ++ e :: rest := by rw [Passage.movedBy_queue, hqueue]
  have hfresh : freshQueue (pairingLimit (s.config t)) stamp (p.movedBy (s.config t) stamp).queue = e :: rest := by
    rw [hqueue']
    exact freshQueue_append hstale fun e' he => Option.some.inj he ▸ hkept
  rw [wheelEdge_trailing hmode hp hrun (Passage.completesOrphanRun_of_fresh hfresh), Passage.trailingEdge_pair hqueue' hfresh]

end TrailingWheelEdge

/-! ### Judging the sample (R30 to R34) -/

section Samples

variable {p : Passage} {c : TrackConfig} {stamp e : Time} {v est : Nat}

theorem Passage.pair_of_not_after (hd : (stamp - e).toInt < 1) : p.pair c stamp e = p.reject :=
  if_pos (.inl hd)

theorem Passage.pair_of_too_fast (hv : 100000 < sensorSpacing c * 1000000 / (stamp - e).toInt.toNat) : p.pair c stamp e = p.reject :=
  if_pos (.inr hv)

theorem Passage.pair_of_plausible (hd : 1 ≤ (stamp - e).toInt) (hv : sensorSpacing c * 1000000 / (stamp - e).toInt.toNat ≤ 100000) :
    p.pair c stamp e = p.sample (sensorSpacing c * 1000000 / (stamp - e).toInt.toNat) :=
  if_neg (not_or.mpr ⟨not_lt.mpr hd, not_lt.mpr hv⟩)

theorem Passage.sample_seeds (hest : p.vEst = none) : p.sample v = p.accept v := by
  simp [Passage.sample, hest]

theorem Passage.sample_concordant (hest : p.vEst = some est) (hv : 4 * ((v : Int) - est).natAbs ≤ est) :
    p.sample v = p.accept ((3 * est + v + 2) / 4) := by
  simp [Passage.sample, hest, discordant, not_lt.mpr hv]

theorem Passage.sample_discordant (hest : p.vEst = some est) (hv : est < 4 * ((v : Int) - est).natAbs) (hrun : p.discord + 1 < 3) :
    p.sample v = { p.reject with discord := p.discord + 1 } := by
  simp [Passage.sample, hest, discordant, hv, hrun]

theorem Passage.sample_reseeds (hest : p.vEst = some est) (hv : est < 4 * ((v : Int) - est).natAbs) (hrun : 3 ≤ p.discord + 1) :
    p.sample v = p.accept v := by
  simp [Passage.sample, hest, discordant, hv, not_lt.mpr hrun]

end Samples

/-- Settles O15: the axle queue loses its stale entries, and what is left decides between an orphan and a pairing, whose interval and sample
decide the rest. -/
theorem trailingEdgesPairOrOrphan : Obligations.TrailingEdgesPairOrOrphan := by
  intro s t w stamp p stale fresh c spacing base rejectedOne leaves hmode hp hrun hw hqueue hstale hhead
  subst hw
  have hbase : (p.movedBy c stamp).afterStale stale.length fresh.tail = base := by
    simp [Passage.afterStale, satSucc, satAdd, base]
  have hreject : base.reject = rejectedOne := by
    rw [← hbase, Passage.afterStale_reject, hbase, Passage.movedBy_rejected]
  have haccept (v : Nat) : base.accept v =
      { base with vEst := some v, accepted := min (p.accepted + 1) 65535, discord := 0, orphan := 0 } := by
    simp [Passage.accept, satSucc, base]
  have hvEst : base.vEst = p.vEst := Passage.movedBy_vEst p c stamp
  have hdiscord : base.discord = p.discord := Passage.movedBy_discord p c stamp
  cases fresh with
  | nil =>
    refine ⟨fun _ horphan => ?_, nofun⟩
    have hedge := wheelEdge_trailing_orphan hmode hp hrun hstale (by simpa using hqueue) horphan
    exact hedge.trans (by rw [← hreject, ← hbase, List.tail_nil])
  | cons e rest =>
    refine ⟨nofun, fun e' he => ?_⟩
    obtain rfl : e = e' := Option.some.inj he
    have hedge : leaves (base.pair c stamp e) :=
      hbase ▸ wheelEdge_trailing_pair hmode hp hrun hstale hqueue (hhead e rfl)
    have hpaired (q : Passage) (hq : base.pair c stamp e = q) : leaves q := hq ▸ hedge
    refine ⟨fun hd => ?_, fun _ hv => ?_, fun hd hv => ?_⟩
    · exact hpaired _ ((Passage.pair_of_not_after hd).trans hreject)
    · exact hpaired _ ((Passage.pair_of_too_fast hv).trans hreject)
    · have hsample : base.pair c stamp e = base.sample (spacing * 1000000 / (stamp - e).toInt.toNat) :=
        Passage.pair_of_plausible hd hv
      refine ⟨fun hest => ?_, fun est hest => ⟨fun hnear => ?_, fun hfar hshort => ?_, fun hfar hthird => ?_⟩⟩
      · exact hpaired _ (by rw [hsample, Passage.sample_seeds (hvEst.trans hest), haccept])
      · exact hpaired _ (by rw [hsample, Passage.sample_concordant (hvEst.trans hest) hnear, haccept])
      · exact hpaired _ (by
          rw [hsample, Passage.sample_discordant (hvEst.trans hest) hfar (hdiscord ▸ hshort), hreject, hdiscord])
      · exact hpaired _ (by rw [hsample, Passage.sample_reseeds (hvEst.trans hest) hfar (hdiscord ▸ hthird), haccept])

end Sys2Proof.Machine
end

section
/-! PROOFS. The planning of a station (chapter 5): when a station is attended, a station busy and a flash unit free, what each step of
R96 to R102 answers, and what the flash decision is. -/

namespace Sys2Proof.Machine

/-! ### What planning asks of the state (R96, R99, R106) -/

theorem attended_iff {s : State} {st : Station} :
    s.attended st = true ↔ ∃ p, s.bindings.get st = some p ∧ (s.ports.get p).attendance = .attended := by
  cases h : s.bindings.get st <;> simp [State.attended, h]

/-- A recent firing, whose age-out deadline is still set, or a pending trigger lies within the spacing (R99, R109). -/
theorem stationBusy_iff {s : State} {st : Station} {spacing : Nat} {trig : Time} :
    s.stationBusy st spacing trig = true ↔
      (∃ f, (s.stations.get st).lastFire = some f ∧ (s.stations.get st).ageOutAt ≠ none ∧ (trig - f).toInt.natAbs < spacing) ∨
      ∃ e ∈ s.triggers, e.output = .cam st ∧ (trig - e.fireAt).toInt.natAbs < spacing := by
  unfold State.stationBusy
  cases (s.stations.get st).lastFire <;> cases (s.stations.get st).ageOutAt <;> simp [apart, signedDiff]

/-- The five conditions of R106, the last firing counting only while its age-out deadline is set. -/
theorem freeAt_iff {s : State} {u : FlashId} {centre : Time} :
    s.freeAt u centre = true ↔
      (s.unitConfig u).enabled = true ∧ s.inhibit.asserted = false ∧
      (∀ f, (s.units.get u).lastFire = some f → (s.units.get u).ageOutAt ≠ none →
        ((s.unitConfig u).recharge : Int) ≤ (centre - f).toInt) ∧
      (∀ b ∈ (s.units.get u).bookings, (s.unitConfig u).recharge ≤ (centre - b).toInt.natAbs) ∧
      (s.units.get u).bookings.length < 4 := by
  simp only [State.freeAt, Bool.and_eq_true, decide_eq_true_eq, and_assoc]
  cases (s.units.get u).lastFire <;> cases (s.units.get u).ageOutAt <;> simp [apart, signedDiff, bookingLimit]

/-! ### The flash decision and the entries it needs (R100, R101) -/

section FlashDecision

variable {s : State} {t : Track} {c : StationConfig} {centre : Time}

theorem flashDecision_notUsed (hpolicy : c.policy = .none) : s.flashDecision t c centre = .notUsed := if_pos hpolicy

theorem flashDecision_suppressed (hpolicy : c.policy ≠ .none) (htest : s.mode t = .test) :
    s.flashDecision t c centre = .suppressed := by
  rw [State.flashDecision, if_neg hpolicy, if_pos htest]

theorem flashDecision_lit (hpolicy : c.policy ≠ .none) (hlive : s.mode t ≠ .test) :
    s.flashDecision t c centre = if (unitsOf c.flashSet).all fun u => s.freeAt u centre then .booked else .unavailable := by
  rw [State.flashDecision, if_neg hpolicy, if_neg hlive]

theorem entriesNeeded_booked : entriesNeeded c .booked = 1 + (unitsOf c.flashSet).length := rfl

theorem entriesNeeded_unbooked {f : FlashResult} (hf : f ≠ .booked) : entriesNeeded c f = 1 := by
  simp [entriesNeeded, hf]

end FlashDecision

/-! ### The steps of R96 to R102, each by its equation -/

section Steps

variable {s : State} {t : Track} {snap : TrackSnapshot} {dir : Direction} {v : Nat} {mid : Time} {st : Station} {c : StationConfig}

/-- Whichever step decides, the plan holds the times of R94. -/
theorem decideStation_times :
    (s.decideStation t snap dir v mid st c).trigger =
      minus (plus mid (timeToGo (distanceToGo dir snap.config c.x) v)) c.delta ∧
    (s.decideStation t snap dir v mid st c).flashTime = plus mid (timeToGo (distanceToGo dir snap.config c.x) v) := by
  simp only [State.decideStation]
  split_ifs <;> exact ⟨rfl, rfl⟩

variable {go : Nat} {centre trig : Time} (hgo : timeToGo (distanceToGo dir snap.config c.x) v = go) (hcentre : plus mid go = centre)
  (htrig : minus centre c.delta = trig)
include hgo hcentre htrig

theorem decideStation_notServed (hoff : c.enabled = false) :
    s.decideStation t snap dir v mid st c = ⟨.notServed, .notUsed, trig, centre⟩ := by
  simp [State.decideStation, hgo, hcentre, htrig, hoff]

variable (hon : c.enabled = true)
include hon

theorem decideStation_unattended (hatt : s.attended st = false) :
    s.decideStation t snap dir v mid st c = ⟨.unattended, .notUsed, trig, centre⟩ := by
  simp [State.decideStation, hgo, hcentre, htrig, hon, hatt]

variable (hatt : s.attended st = true)
include hatt

theorem decideStation_missedHorizon (hfar : horizon < go) :
    s.decideStation t snap dir v mid st c = ⟨.missedHorizon, .notUsed, trig, centre⟩ := by
  simp [State.decideStation, hgo, hcentre, htrig, hon, hatt, hfar]

variable (hnear : ¬ horizon < go)
include hnear

theorem decideStation_missedLate (hlate : signedDiff trig s.now < snap.tSetup) :
    s.decideStation t snap dir v mid st c = ⟨.missedLate, .notUsed, trig, centre⟩ := by
  simp [State.decideStation, hgo, hcentre, htrig, hon, hatt, hnear, hlate]

variable (hearly : ¬ signedDiff trig s.now < snap.tSetup)
include hearly

theorem decideStation_missedBusy (hbusy : s.stationBusy st c.spacing trig = true) :
    s.decideStation t snap dir v mid st c = ⟨.missedBusy, .notUsed, trig, centre⟩ := by
  simp [State.decideStation, hgo, hcentre, htrig, hon, hatt, hnear, hearly, hbusy]

variable (hfree : s.stationBusy st c.spacing trig = false)
include hfree

theorem decideStation_conflict (hflash : s.flashDecision t c centre = .unavailable) (hreq : c.policy = .required) :
    s.decideStation t snap dir v mid st c = ⟨.conflict, .unavailable, trig, centre⟩ := by
  simp [State.decideStation, hgo, hcentre, htrig, hon, hatt, hnear, hearly, hfree, hflash, hreq]

variable {flash : FlashResult} (hflash : s.flashDecision t c centre = flash)
  (hpasses : ¬ (flash = .unavailable ∧ c.policy = .required))
include hflash hpasses

theorem decideStation_missedListFull (hfull : triggerLimit < s.triggers.length + entriesNeeded c flash) :
    s.decideStation t snap dir v mid st c = ⟨.missedListFull, if flash = .booked then .notUsed else flash, trig, centre⟩ := by
  simp [State.decideStation, hgo, hcentre, htrig, hon, hatt, hnear, hearly, hfree, hflash, hpasses, hfull]

theorem decideStation_pending (hroom : ¬ triggerLimit < s.triggers.length + entriesNeeded c flash) :
    s.decideStation t snap dir v mid st c = ⟨.pending, flash, trig, centre⟩ := by
  simp [State.decideStation, hgo, hcentre, htrig, hon, hatt, hnear, hearly, hfree, hflash, hpasses, hroom]

end Steps

/-- Settles O25: step by step, each by its equation; past step 6 the flash decision says how many entries step 7 asks room for. -/
theorem stationIsDecidedByTheFirstStep : Obligations.StationIsDecidedByTheFirstStep := by
  intro s t snap dir v mid st c d go centre trig units recharge attended busy free lights answer is placed
  have hattended : s.attended st = true ↔ attended := attended_iff
  have hbusy : s.stationBusy st c.spacing trig = true ↔ busy := stationBusy_iff
  have hfree : ((unitsOf c.flashSet).all fun u => s.freeAt u centre) = true ↔ ∀ u ∈ units, free u :=
    List.all_eq_true.trans (forall₂_congr fun _ _ => freeAt_iff)
  have hnotBusy (h : ¬ busy) : s.stationBusy st c.spacing trig = false := Bool.eq_false_iff.mpr (mt hbusy.mp h)
  have hunavailable (h : lights) (hunits : ¬ ∀ u ∈ units, free u) : s.flashDecision t c centre = .unavailable :=
    (flashDecision_lit h.1 h.2).trans (if_neg (mt hfree.mp hunits))
  have hgo : timeToGo (distanceToGo dir snap.config c.x) v = go := rfl
  have hcentre : plus mid go = centre := rfl
  have htrig : minus centre c.delta = trig := rfl
  have outcome {camera : CameraOutcome} {flash : FlashResult} (h : answer = ⟨camera, flash, trig, centre⟩) : is camera flash :=
    ⟨congrArg StationPlan.camera h, congrArg StationPlan.flash h⟩
  refine ⟨decideStation_times.1, decideStation_times.2, fun hoff => ?_, fun hon hnone => ?_, fun hon hatt => ?_⟩
  · exact outcome (decideStation_notServed hgo hcentre htrig hoff)
  · exact outcome (decideStation_unattended hgo hcentre htrig hon (Bool.eq_false_iff.mpr (mt hattended.mp hnone)))
  rw [← hattended] at hatt
  refine ⟨fun hfar => ?_, fun hnear hlate => ?_, fun hnear hearly => ?_⟩
  · exact outcome (decideStation_missedHorizon hgo hcentre htrig hon hatt hfar)
  · exact outcome (decideStation_missedLate hgo hcentre htrig hon hatt (not_lt.mpr hnear) hlate)
  replace hnear := not_lt.mpr hnear
  replace hearly := not_lt.mpr hearly
  have placed_of {flash : FlashResult} {needed : Nat} (hidle : ¬ busy) (hflash : s.flashDecision t c centre = flash)
      (hneeded : entriesNeeded c flash = needed) (hpasses : ¬ (flash = .unavailable ∧ c.policy = .required)) :
      placed flash needed := by
    subst hneeded
    replace hidle := hnotBusy hidle
    refine ⟨fun hroom => ?_, fun hfull => ?_⟩
    · exact outcome (decideStation_pending hgo hcentre htrig hon hatt hnear hearly hidle hflash hpasses (not_lt.mpr hroom))
    · exact outcome (decideStation_missedListFull hgo hcentre htrig hon hatt hnear hearly hidle hflash hpasses hfull)
  refine ⟨fun hb => ?_, fun hidle hpolicy => ?_, fun hidle hpolicy htest => ?_, fun hidle hlights hunits => ?_,
    fun hidle hlights hunits hreq => ?_, fun hidle hlights hunits hreq => ?_⟩
  · exact outcome (decideStation_missedBusy hgo hcentre htrig hon hatt hnear hearly (hbusy.mpr hb))
  · exact placed_of hidle (flashDecision_notUsed hpolicy) (entriesNeeded_unbooked nofun) nofun
  · exact placed_of hidle (flashDecision_suppressed hpolicy htest) (entriesNeeded_unbooked nofun) nofun
  · have hflash := (flashDecision_lit hlights.1 hlights.2).trans (if_pos (hfree.mpr hunits))
    exact placed_of hidle hflash entriesNeeded_booked nofun
  · exact outcome (decideStation_conflict hgo hcentre htrig hon hatt hnear hearly (hnotBusy hidle)
      (hunavailable hlights hunits) hreq)
  · exact placed_of hidle (hunavailable hlights hunits) (entriesNeeded_unbooked nofun) fun h => hreq h.2

end Sys2Proof.Machine
end

section
/-! PROOFS. Relayed notices (chapter 9): what a request in execution leaves of its port, what a port makes of a notice offered to it, and
how RELAY is judged and answered (R168). -/

namespace Sys2Proof.Machine

/-! ### Changes of two ports -/

theorem PerPort.set_comm {α : Type} (b : PerPort α) {i j : PortId} (h : i ≠ j) (x y : α) : (b.set i x).set j y = (b.set j y).set i x := by
  refine PerPort.ext_get fun k => ?_
  by_cases hj : j = k
  · subst hj
    simp [h]
  · simp [PerPort.get_set, hj]

theorem updatePort_comm (s : State) {p q : PortId} (h : p ≠ q) (f g : Port → Port) :
    (s.updatePort p f).updatePort q g = (s.updatePort q g).updatePort p f := by
  simp [State.updatePort, PerPort.modify, h, h.symm, PerPort.set_comm _ h]

/-! ### A port whose request is being performed (R155) -/

section Performing

variable (s : State) (p q : PortId) (frame : List Byte)

theorem performing_eq_updatePort : s.performing p frame = s.updatePort p fun x => { x with assembler := frame, executing := true } := rfl

theorem performing_get : (s.performing p frame).ports.get q =
    if p = q then { s.ports.get q with assembler := frame, executing := true } else s.ports.get q := by
  simp [State.performing, PerPort.get_modify]

/-! What decides on a notice offered to a port is as it was before the request. -/

@[simp] theorem performing_get_inReset : ((s.performing p frame).ports.get q).inReset = (s.ports.get q).inReset := by
  rw [performing_get]
  split <;> rfl

@[simp] theorem performing_get_attendance : ((s.performing p frame).ports.get q).attendance = (s.ports.get q).attendance := by
  rw [performing_get]
  split <;> rfl

@[simp] theorem performing_get_queue : ((s.performing p frame).ports.get q).queue = (s.ports.get q).queue := by
  rw [performing_get]
  split <;> rfl

end Performing

/-! ### A notice offered to one port (R155, R158) -/

theorem Port.canQueue_iff {x : Port} :
    x.canQueue = true ↔ x.inReset = false ∧ x.attendance = .attended ∧ x.queue.length < queueLimit := by
  simp [Port.canQueue, and_assoc]

/-- A notice offered while a request of the port is being performed is queued and not loaded. -/
theorem Port.offer_of_executing {x : Port} (hroom : x.canQueue = true) (hexec : x.executing = true) (n : Notice) :
    x.offer n = x.enqueue n := by
  simp [Port.offer, hroom, hexec]

theorem offer_to_one (s : State) (q : PortId) (n : Notice) : s.offer (fun i _ => i == q) n = s.updatePort q (·.offer n) := by
  refine congrArg s.setPorts (PerPort.ext_get fun i => ?_)
  by_cases h : q = i
  · simp [h]
  · simp [h, Ne.symm h]

/-! ### RELAY judged (R168) -/

theorem portOf_eq_none {target : Byte} (h : 3 < target.toNat) : portOf target = none := by
  refine List.find?_eq_none.mpr fun p _ => ?_
  have hne : target.toNat ≠ portCode p := by cases p <;> simp only [portCode] <;> omega
  simpa using hne

@[simp] theorem portOf_portCode (q : PortId) : portOf (.ofNat 8 (portCode q)) = some q := by
  cases q <;> rfl

section Judged

variable {s : State} (p : PortId) {q : PortId} (bytes : List Byte)

theorem relay_badArg {target : Byte} (h : 3 < target.toNat) : s.relay p target bytes = s.refuse .badArg := by
  simp [State.relay, portOf_eq_none h]

theorem relay_unreachable (h : (s.ports.get q).inReset = true ∨ (s.ports.get q).attendance = .lapsed) :
    s.relay p (.ofNat 8 (portCode q)) bytes = s.refuse .unreachable := by
  simp [State.relay, h]

section Reachable

variable (hup : (s.ports.get q).inReset = false) (hatt : (s.ports.get q).attendance = .attended)
include hup hatt

theorem relay_full (h : 32 ≤ (s.ports.get q).queue.length) : s.relay p (.ofNat 8 (portCode q)) bytes = s.refuse .full := by
  simp [State.relay, hup, hatt, queueLimit, h]

theorem relay_offers (h : (s.ports.get q).queue.length < 32) :
    s.relay p (.ofNat 8 (portCode q)) bytes = (s.updatePort q (·.offer (relayNotice p bytes))).grant [] := by
  simp [State.relay, hup, hatt, queueLimit, Nat.not_le.mpr h, offer_to_one]

end Reachable

end Judged

/-! ### RELAY answered -/

section Answered

variable {s : State} {p : PortId} {bytes : List Byte} (hr : s.Running) (hx : (s.ports.get p).Ready) (hone : 1 ≤ bytes.length)
  (hmost : bytes.length ≤ 12)
include hr hx hone hmost

/-- RELAY is answered in the state `t` that performing it leaves, the executing port's own frame apart. -/
theorem exec_relay_answers {target : Byte} (t : State) (r : Result) (hholder : (t.ports.get p).holder = none)
    (hholding : (t.ports.get p).holding = false) (hexec : (t.ports.get p).executing = false)
    (h : ∀ frame, (s.performing p frame).relay p target bytes = { result := r, body := [], state := t.performing p frame }) :
    exec (.relay p target bytes) s = .next (t.answers p [0x0B, resultCode r, 0]) := by
  have hlength : allowsLength .relay (target :: bytes).length = true := by
    simp only [allowsLength, List.length_cons, Bool.and_eq_true, decide_eq_true_eq]
    omega
  have hfits : (target :: bytes).length ≤ 14 := by
    rw [List.length_cons]
    omega
  exact congrArg Host.Outcome.next
    (request_answers s t p .relay (target :: bytes) [] r hr hx hfits hlength (h _) hholder hholding hexec)

/-- A RELAY that is refused changes nothing but its own port, which is answered. -/
theorem exec_relay_refused {target : Byte} (r : Result)
    (h : ∀ frame, (s.performing p frame).relay p target bytes = (s.performing p frame).refuse r) :
    exec (.relay p target bytes) s = .next (s.answers p [0x0B, resultCode r, 0]) := by
  have ⟨_, hholder, hholding, _, _, hexec⟩ := hx
  exact exec_relay_answers hr hx hone hmost s r hholder hholding hexec h

theorem exec_relay_other {q : PortId} (hup : (s.ports.get q).inReset = false) (hatt : (s.ports.get q).attendance = .attended)
    (hroom : (s.ports.get q).queue.length < 32) (hne : q ≠ p) :
    exec (.relay p (.ofNat 8 (portCode q)) bytes) s =
      .next ((s.updatePort q (·.offer (relayNotice p bytes))).answers p [0x0B, 0, 0]) := by
  have ⟨_, hholder, hholding, _, _, hexec⟩ := hx
  refine exec_relay_answers hr hx hone hmost _ .accepted (by simpa [hne]) (by simpa [hne]) (by simpa [hne]) fun frame => ?_
  rw [relay_offers p bytes (by simpa) (by simpa) (by simpa), performing_eq_updatePort, updatePort_comm s hne.symm]
  rfl

/-- A RELAY to its own port is queued while the port's request is in execution, so it waits behind the reply (R155). -/
theorem exec_relay_self (hatt : (s.ports.get p).attendance = .attended) (hroom : (s.ports.get p).queue.length < 32) :
    exec (.relay p (.ofNat 8 (portCode p)) bytes) s =
      .next ((s.updatePort p (·.enqueue (relayNotice p bytes))).answers p [0x0B, 0, 0]) := by
  have ⟨hup, hholder, hholding, _, _, hexec⟩ := hx
  refine exec_relay_answers hr hx hone hmost _ .accepted (by simpa) (by simpa) (by simpa) fun frame => ?_
  have hqueued : ((s.performing p frame).ports.get p).offer (relayNotice p bytes) =
      ((s.performing p frame).ports.get p).enqueue (relayNotice p bytes) :=
    Port.offer_of_executing (Port.canQueue_iff.mpr (by simp [hup, hatt, queueLimit, hroom])) (by simp [performing_get]) _
  rw [relay_offers p bytes (by simpa) (by simpa) (by simpa), updatePort_congr _ p (g := (·.enqueue (relayNotice p bytes))) hqueued]
  simp only [performing_eq_updatePort, updatePort_updatePort]
  rfl

end Answered

/-- Settles O48: by the tests of R168 in their order; a relay that passes them is queued at another port, or at its own behind the reply. -/
theorem relayOffersItsBytesToTheTarget : Obligations.RelayOffersItsBytesToTheTarget := by
  intro s p bytes hr hx hone hmost
  refine ⟨fun target htarget => ?_, fun q => ⟨fun hgone => ?_, fun hup hatt hfull => ?_,
    fun hup hatt hroom => ⟨fun hne => ?_, fun hself => ?_⟩⟩⟩
  · exact exec_relay_refused hr hx hone hmost .badArg fun _ => relay_badArg p bytes htarget
  · exact exec_relay_refused hr hx hone hmost .unreachable fun _ => relay_unreachable p bytes (by simpa)
  · exact exec_relay_refused hr hx hone hmost .full fun _ => relay_full p bytes (by simpa) (by simpa) (by simpa)
  · exact exec_relay_other hr hx hone hmost hup hatt hroom hne
  · subst hself
    exact exec_relay_self hr hx hone hmost hatt hroom

end Sys2Proof.Machine
end

section
/-! PROOFS. The frame of every command: which commands may touch the time base, the outputs, the store and the image, and that every command
answers a next state and leaves the queue. -/

namespace Sys2Proof.Machine

/-! ### What requests and the maintenance line leave -/

/-- A request, an access to a port and a detector event leave the time base, the stations, the outputs, the memories, the maintenance line
and the queue. -/
structure OnlyServed (s t : State) : Prop where
  clock : t.clock = s.clock
  inhibit : t.inhibit = s.inhibit
  stations : t.stations = s.stations
  outputs : t.outputs = s.outputs
  store : t.store = s.store
  image : t.image = s.image
  maint : t.maint = s.maint
  pending : t.pending = s.pending

/-- What a byte received on the maintenance line leaves: the time base, the outputs, the store and the queue. -/
structure OnlyLine (s t : State) : Prop where
  clock : t.clock = s.clock
  inhibit : t.inhibit = s.inhibit
  stations : t.stations = s.stations
  outputs : t.outputs = s.outputs
  store : t.store = s.store
  pending : t.pending = s.pending

theorem OnlyServed.refl (s : State) : OnlyServed s s := by constructor <;> rfl

theorem OnlyServed.trans {s t u : State} (h : OnlyServed s t) (k : OnlyServed t u) : OnlyServed s u :=
  { clock := k.clock.trans h.clock, inhibit := k.inhibit.trans h.inhibit, stations := k.stations.trans h.stations,
    outputs := k.outputs.trans h.outputs, store := k.store.trans h.store, image := k.image.trans h.image,
    maint := k.maint.trans h.maint, pending := k.pending.trans h.pending }

theorem OnlyLine.refl (s : State) : OnlyLine s s := by constructor <;> rfl

theorem OnlyLine.trans {s t u : State} (h : OnlyLine s t) (k : OnlyLine t u) : OnlyLine s u :=
  { clock := k.clock.trans h.clock, inhibit := k.inhibit.trans h.inhibit, stations := k.stations.trans h.stations,
    outputs := k.outputs.trans h.outputs, store := k.store.trans h.store, pending := k.pending.trans h.pending }

theorem OnlyModes.served {s t : State} (h : OnlyModes s t) : OnlyServed s t :=
  { clock := h.clock, inhibit := h.inhibit, stations := h.stations, outputs := h.outputs, store := h.store, image := h.image,
    maint := h.maint, pending := h.pending }

theorem OnlyEdges.served {s t : State} (h : OnlyEdges s t) : OnlyServed s t := h.detectors.modes.served

theorem OnlyServed.line {s t : State} (h : OnlyServed s t) : OnlyLine s t :=
  { clock := h.clock, inhibit := h.inhibit, stations := h.stations, outputs := h.outputs, store := h.store, pending := h.pending }

/-- An event of a counting part alone has the footprint of its effect. -/
theorem whenRunning_keeps {R : State → State → Prop} (hr : ∀ s, R s s) {f : State → State} {s : State} (h : s.Running → R s (f s)) :
    R s (s.whenRunning f) := by
  unfold State.whenRunning
  split
  · exact h ‹_›
  · exact hr s

/-! ### Requests -/

theorem updatePort_only (s : State) (p : PortId) (f : Port → Port) : OnlyPorts s (s.updatePort p f) := by repeat' constructor

theorem updatePort_served (s : State) (p : PortId) (f : Port → Port) : OnlyServed s (s.updatePort p f) :=
  (updatePort_only ..).edges.served

theorem subscribe_served (s : State) (p : PortId) (a b : Byte) : OnlyServed s (s.subscribe p a b).state := by
  unfold State.subscribe
  split
  · exact updatePort_served ..
  · exact .refl s

theorem bindStation_served (s : State) (p : PortId) (station : Byte) : OnlyServed s (s.bindStation p station).state := by
  unfold State.bindStation
  split
  · exact .refl s
  · split
    · constructor <;> rfl
    · split <;> exact .refl s

theorem loseBinding_served (s : State) (p : PortId) (st : Station) : OnlyServed s (s.loseBinding p st) :=
  OnlyServed.trans (t := s.setBindings (s.bindings.set st none)) (by constructor <;> rfl) (removeEntries_only ..).edges.served

theorem unbindStation_served (s : State) (p : PortId) (station : Byte) : OnlyServed s (s.unbindStation p station).state := by
  unfold State.unbindStation
  split
  · exact .refl s
  · split
    · exact loseBinding_served ..
    · exact .refl s

theorem setTrackModeBytes_served (s : State) (a b : Byte) : OnlyServed s (s.setTrackModeBytes a b).state := by
  unfold State.setTrackModeBytes
  split
  · unfold State.setTrackMode
    split
    · exact .refl s
    · split
      · exact .refl s
      · split
        · split
          · exact .refl s
          · exact (changeMode_only ..).served
        · exact (changeMode_only ..).served
  · exact .refl s

theorem readTrack_state (s : State) (a : Byte) : (s.readTrack a).state = s := by
  unfold State.readTrack
  split <;> rfl

theorem latestRecords_state (s : State) (a : Byte) : (s.latestRecords a).state = s := by
  unfold State.latestRecords
  split <;> rfl

theorem readRecord_state (s : State) (n : Nat) : (s.readRecord n).state = s := by
  unfold State.readRecord
  split <;> rfl

theorem tagPassage_served (s : State) (a : Byte) (tag : BitVec 32) : OnlyServed s (s.tagPassage a tag).state := by
  unfold State.tagPassage
  split
  · exact .refl s
  · split
    · exact .refl s
    · split
      · exact .refl s
      · constructor <;> rfl

theorem inject_served (s : State) (a : Byte) (edges : List EdgeArg) : OnlyServed s (s.inject a edges).state := by
  unfold State.inject
  split
  · exact .refl s
  · split
    · exact .refl s
    · split
      · exact .refl s
      · dsimp only
        split
        · exact .refl s
        · exact (setInjections_only ..).served

theorem relay_served (s : State) (p : PortId) (a : Byte) (bytes : List Byte) : OnlyServed s (s.relay p a bytes).state := by
  unfold State.relay
  split
  · exact .refl s
  · dsimp only
    split
    · exact .refl s
    · split
      · exact .refl s
      · simp only [State.grant]
        exact (offer_only ..).edges.served

theorem releaseFault_served (s : State) (mask : BitVec 16) : OnlyServed s (s.releaseFault mask).state := by
  unfold State.releaseFault
  split
  · constructor <;> rfl
  · exact .refl s

theorem perform_served (s : State) (p : PortId) (k : RequestKind) (body : List Byte) : OnlyServed s (s.perform p k body).state := by
  unfold State.perform
  split
  · exact .refl s
  · exact subscribe_served ..
  · exact bindStation_served ..
  · exact unbindStation_served ..
  · exact setTrackModeBytes_served ..
  · rw [readTrack_state]; exact .refl s
  · rw [readRecord_state]; exact .refl s
  · rw [latestRecords_state]; exact .refl s
  · exact .refl s
  · exact tagPassage_served ..
  · exact relay_served ..
  · exact inject_served ..
  · exact .refl s
  · exact releaseFault_served ..
  · exact .refl s
  · exact .refl s

theorem malformed_state (s : State) (k : RequestKind) (body : List Byte) : (s.malformed k body).state = s := by
  unfold State.malformed
  split <;> rfl

theorem judge_served (s : State) (p : PortId) (kind length : Byte) (body : List Byte) :
    OnlyServed s (s.judge p kind length body).state := by
  unfold State.judge
  split
  · exact .refl s
  · split
    · exact perform_served ..
    · rw [malformed_state]; exact .refl s

/-! ### Accesses to a port -/

theorem executeFrame_served (s : State) (p : PortId) : OnlyServed s (s.executeFrame p) := by
  unfold State.executeFrame
  split
  · exact ((updatePort_served ..).trans (judge_served ..)).trans (updatePort_served ..)
  · exact .refl s

theorem assemble_served (s : State) (p : PortId) (b : Byte) : OnlyServed s (s.assemble p b) := by
  unfold State.assemble
  dsimp only
  split
  · split
    · exact (updatePort_served ..).trans (executeFrame_served ..)
    · exact (updatePort_served ..).trans (updatePort_served ..)
  · exact updatePort_served ..

theorem writeByte_served (s : State) (p : PortId) (b : Byte) : OnlyServed s (s.writeByte p b) := by
  unfold State.writeByte
  dsimp only
  split
  · exact .refl s
  · split
    · exact updatePort_served ..
    · split
      · exact updatePort_served ..
      · exact assemble_served ..

theorem request_served (s : State) (p : PortId) (k : RequestKind) (body : List Byte) : OnlyServed s (s.request p k body) :=
  whenRunning_keeps OnlyServed.refl fun _ =>
    foldl_keeps OnlyServed.refl (fun _ _ _ => OnlyServed.trans) (fun s b => writeByte_served s p b) _ s

theorem writeStatus_served (s : State) (p : PortId) : OnlyServed s (s.writeStatus p) := by
  unfold State.writeStatus
  split
  · exact .refl s
  · exact updatePort_served ..

theorem readByte_served (s : State) (p : PortId) : OnlyServed s (s.readByte p) := by
  unfold State.readByte
  dsimp only
  split
  · exact .refl s
  · split
    · exact updatePort_served ..
    · split
      · exact updatePort_served ..
      · split
        · exact (updatePort_served ..).trans (executeFrame_served ..)
        · exact (updatePort_served ..).trans (updatePort_served ..)

theorem attendanceExpire_served (s : State) (p : PortId) : OnlyServed s (s.attendanceExpire p) := by
  unfold State.attendanceExpire
  split
  · exact updatePort_served ..
  · exact .refl s

theorem resetPort_served (s : State) (p : PortId) : OnlyServed s (s.resetPort p) := by
  unfold State.resetPort
  dsimp only
  refine OnlyServed.trans (OnlyServed.trans ?_ (removeEntries_only ..).edges.served) (updatePort_served ..)
  constructor <;> rfl

theorem assertPortReset_served (s : State) (p : PortId) : OnlyServed s (s.assertPortReset p) := by
  unfold State.assertPortReset
  split
  · split
    · exact .refl s
    · exact resetPort_served ..
  · exact updatePort_served ..

theorem releasePortReset_served (s : State) (p : PortId) : OnlyServed s (s.releasePortReset p) := by
  unfold State.releasePortReset
  split
  · dsimp only
    split
    · exact (updatePort_served ..).trans (updatePort_served ..)
    · exact updatePort_served ..
  · exact .refl s

/-! ### The maintenance line -/

theorem updateMaint_line (s : State) (f : Maintenance → Maintenance) : OnlyLine s (s.updateMaint f) := by constructor <;> rfl

theorem sendBytes_line (s : State) (bytes : List Byte) : OnlyLine s (s.sendBytes bytes) := by
  constructor <;> rfl

theorem writeImage_line (s : State) (addr : Nat) (b : Byte) : OnlyLine s (s.writeImage addr b) := by
  unfold State.writeImage
  refine OnlyLine.trans (t := s.setImage (Memory.write s.image addr b)) (by constructor <;> rfl) ?_
  refine foldl_keeps OnlyLine.refl (fun _ _ _ => OnlyLine.trans) (fun s t => ?_) _ _
  split
  · exact foldl_keeps OnlyLine.refl (fun _ _ _ => OnlyLine.trans)
      (fun s i => (settleActiveLevel_only s _ t i).modes.served.line) _ s
  · exact .refl s

theorem lineRead_line (s : State) (addr : BitVec 10) : OnlyLine s (s.lineRead addr) := by
  unfold State.lineRead State.latchFor
  dsimp only
  split
  · split
    · exact ((updateMaint_line ..).trans (updateMaint_line ..)).trans (sendBytes_line ..)
    · exact (updateMaint_line ..).trans (sendBytes_line ..)
  · exact (updateMaint_line ..).trans (sendBytes_line ..)

theorem lineWrite_line (s : State) (addr : BitVec 10) (b : Byte) : OnlyLine s (s.lineWrite addr b) := by
  unfold State.lineWrite
  dsimp only
  split
  · exact (updateMaint_line ..).trans (writeImage_line ..)
  · exact updateMaint_line ..

theorem lineChecksum_line (s : State) : OnlyLine s s.lineChecksum := by
  unfold State.lineChecksum
  split <;> exact sendBytes_line ..

theorem startCommit_line (s : State) : OnlyLine s s.startCommit := by
  unfold State.startCommit
  split
  · constructor <;> rfl
  · exact sendBytes_line ..

theorem beginCommand_line (s : State) (b : Byte) : OnlyLine s (s.beginCommand b) := by
  unfold State.beginCommand
  split
  · exact .refl s
  · exact updateMaint_line ..
  · exact updateMaint_line ..
  · exact lineRead_line ..
  · exact updateMaint_line ..
  · exact startCommit_line s
  · exact lineChecksum_line s

theorem parse_line (s : State) (b : Byte) : OnlyLine s (s.parse b) := by
  unfold State.parse
  split
  · exact beginCommand_line ..
  · exact updateMaint_line ..
  · exact lineRead_line ..
  · exact updateMaint_line ..
  · exact lineWrite_line ..

theorem collectCode_line (s : State) (b : Byte) : OnlyLine s (s.collectCode b) := by
  unfold State.collectCode
  dsimp only
  split
  · exact updateMaint_line ..
  · exact (updateMaint_line ..).trans (updateMaint_line ..)

theorem receive_line (s : State) (b : Byte) : OnlyLine s (s.receive b) := by
  unfold State.receive
  dsimp only
  refine OnlyLine.trans (sendBytes_line s [b]) ?_
  split
  · exact .refl _
  · split
    · exact collectCode_line ..
    · exact parse_line ..

theorem receiveAll_line (s : State) (bytes : List Byte) : OnlyLine s (s.receiveAll bytes) :=
  whenRunning_keeps OnlyLine.refl fun _ => foldl_keeps OnlyLine.refl (fun _ _ _ => OnlyLine.trans) receive_line _ s

/-! ### Which commands touch what -/

/-- The commands that may change the time base (R1, R2). -/
def setsClock : Instr → Bool
  | .powerOn | .deviceReset | .deviceResetRelease _ | .tbStart | .powerLoss => true
  | _ => false

/-- The commands that may change an output: firings, pulse ends and resets (R126, R128). -/
def drivesOutputs : Instr → Bool
  | .cameraFire _ | .flashFire _ | .pulseEnd _ | .powerOn | .deviceReset | .powerLoss => true
  | _ => false

/-- The commands that may write the store: page writes and what stops one (R172, R177). -/
def writesStore : Instr → Bool
  | .commitPage | .commitEnd | .powerOn | .deviceReset | .powerLoss => true
  | _ => false

/-- The commands of the maintenance line, which are its bytes (R174). -/
def isLineBytes : Instr → Bool
  | .maintRead _ _ | .maintWrite _ _ _ | .maintWriteNext _ | .maintReadNext | .commit | .checksum | .unknownCommandByte _ | .codeByte _
  | .byteReceivedInFlight _ => true
  | _ => false

/-- The commands that may write the image: the line, the load and a loss of power (R172). -/
def writesImage (c : Instr) : Bool :=
  isLineBytes c || match c with
    | .deviceResetRelease _ | .powerOn | .powerLoss => true
    | _ => false

/-- What a command `c` may change of the time base, the outputs, the store and the image, and that it leaves the queue. -/
structure CommandFrame (c : Instr) (s u : State) : Prop where
  clock : setsClock c = false → u.clock = s.clock
  outputs : drivesOutputs c = false → u.outputs = s.outputs
  store : writesStore c = false → u.store = s.store
  image : writesImage c = false → u.image = s.image
  pending : u.pending = s.pending

theorem CommandFrame.trans {c : Instr} {s t u : State} (h : CommandFrame c s t) (k : CommandFrame c t u) : CommandFrame c s u :=
  { clock := fun hc => (k.clock hc).trans (h.clock hc), outputs := fun hc => (k.outputs hc).trans (h.outputs hc)
    store := fun hc => (k.store hc).trans (h.store hc), image := fun hc => (k.image hc).trans (h.image hc)
    pending := k.pending.trans h.pending }

theorem OnlyServed.command {s u : State} (h : OnlyServed s u) (c : Instr) : CommandFrame c s u :=
  { clock := fun _ => h.clock, outputs := fun _ => h.outputs, store := fun _ => h.store, image := fun _ => h.image,
    pending := h.pending }

theorem OnlyLine.command {s u : State} (h : OnlyLine s u) {c : Instr} (hc : writesImage c = true) : CommandFrame c s u :=
  { clock := fun _ => h.clock, outputs := fun _ => h.outputs, store := fun _ => h.store, pending := h.pending
    image := fun hi => absurd hc (by simp [hi]) }

theorem whenRunning_command {c : Instr} {f : State → State} {s : State} (h : s.Running → CommandFrame c s (f s)) :
    CommandFrame c s (s.whenRunning f) :=
  whenRunning_keeps (fun s => (OnlyServed.refl s).command c) h

theorem whenRunning_served {f : State → State} {s : State} (h : OnlyServed s (f s)) (c : Instr) :
    CommandFrame c s (s.whenRunning f) :=
  whenRunning_command fun _ => h.command c

/-! ### Firings, deadlines and the flash inhibit -/

theorem updateEntry_testDone_served (s : State) (n : Nat) (st : Station) (p : Option PortId) (f : StationEntry → StationEntry) :
    OnlyServed s ((s.updateEntry n st p f).testDone n) :=
  ((updateEntry_only ..).trans (testDone_only ..)).edges.served

theorem fireCamera_command (s : State) (st : Station) : CommandFrame (.cameraFire st) s (s.fireCamera st) := by
  unfold State.fireCamera
  split
  · exact (OnlyServed.refl s).command _
  · have h := updateEntry_testDone_served
    constructor
    · exact fun _ => (h ..).clock
    · exact nofun
    · exact fun _ => (h ..).store
    · exact fun _ => (h ..).image
    · exact (h ..).pending

theorem fireFlash_command (s : State) (u : FlashId) : CommandFrame (.flashFire u) s (s.fireFlash u) := by
  unfold State.fireFlash
  split
  · exact (OnlyServed.refl s).command _
  · have h := updateEntry_testDone_served
    constructor
    · exact fun _ => (h ..).clock
    · exact nofun
    · exact fun _ => (h ..).store
    · exact fun _ => (h ..).image
    · exact (h ..).pending

theorem endPulse_command (s : State) (o : OutputLine) : CommandFrame (.pulseEnd o) s (s.endPulse o) := by
  unfold State.endPulse
  cases o <;> dsimp only <;> split <;> constructor <;> intros <;> first | rfl | contradiction

theorem chargeUnit_command (s : State) (u : FlashId) (c : Instr) : CommandFrame c s (s.chargeUnit u) := by
  unfold State.chargeUnit
  split <;> constructor <;> intros <;> rfl

theorem ageOutOf_command (s : State) (o : OutputLine) (c : Instr) : CommandFrame c s (s.ageOutOf o) := by
  unfold State.ageOutOf
  cases o <;> dsimp only <;> split <;> constructor <;> intros <;> rfl

theorem flinhHigh_command (s : State) (c : Instr) : CommandFrame c s s.flinhHigh := by
  unfold State.flinhHigh
  split
  · split
    · exact (OnlyServed.refl s).command c
    · have h := fun v : State => (removeEntries_only v v.inhibits none true).edges.served
      constructor
      · exact fun _ => (h _).clock
      · exact fun _ => (h _).outputs
      · exact fun _ => (h _).store
      · exact fun _ => (h _).image
      · exact (h _).pending
  · constructor <;> intros <;> rfl

theorem flinhLow_command (s : State) (c : Instr) : CommandFrame c s s.flinhLow := by
  unfold State.flinhLow
  split
  · split <;> constructor <;> intros <;> rfl
  · constructor <;> intros <;> rfl

/-! ### Page writes -/

theorem updateMaint_command (s : State) (f : Maintenance → Maintenance) (c : Instr) : CommandFrame c s (s.updateMaint f) :=
  { clock := fun _ => rfl, outputs := fun _ => rfl, store := fun _ => rfl, image := fun _ => rfl, pending := rfl }

theorem sendBytes_command (s : State) (bytes : List Byte) (c : Instr) : CommandFrame c s (s.sendBytes bytes) :=
  { clock := fun _ => rfl, outputs := fun _ => rfl, store := fun _ => rfl, image := fun _ => rfl, pending := rfl }

theorem endPage_command (s : State) (w : CommitWrite) {c : Instr} (hc : writesStore c = true) : CommandFrame c s (s.endPage w) :=
  { clock := fun _ => rfl, outputs := fun _ => rfl, image := fun _ => rfl, pending := rfl
    store := fun h => absurd hc (by simp [h]) }

theorem commitPage_command (s : State) : CommandFrame .commitPage s s.commitPage := by
  unfold State.commitPage
  split
  · exact (OnlyServed.refl s).command _
  · split
    · exact (endPage_command _ _ rfl).trans (updateMaint_command ..)
    · exact (OnlyServed.refl s).command _

theorem commitEnd_command (s : State) : CommandFrame .commitEnd s s.commitEnd := by
  unfold State.commitEnd
  split
  · exact (OnlyServed.refl s).command _
  · split
    · dsimp only
      split
      · exact ((endPage_command _ _ rfl).trans (updateMaint_command ..)).trans (sendBytes_command ..)
      · exact (((endPage_command _ _ rfl).trans (updateMaint_command ..)).trans
          ((raise_only ..).edges.served.command _)).trans (sendBytes_command ..)
    · exact (OnlyServed.refl s).command _

/-! ### Resets and the start -/

theorem stopCommit_pending (s : State) : s.stopCommit.pending = s.pending := by
  unfold State.stopCommit
  split <;> rfl

theorem stopCommit_image (s : State) : s.stopCommit.image = s.image := by
  unfold State.stopCommit
  split <;> rfl

theorem powerOn_command (s : State) : CommandFrame .powerOn s s.powerOn :=
  { clock := nofun, outputs := nofun, store := nofun, image := nofun, pending := stopCommit_pending s }

theorem powerLoss_command (s : State) : CommandFrame .powerLoss s s.powerLoss :=
  { clock := nofun, outputs := nofun, store := nofun, image := nofun, pending := stopCommit_pending s }

theorem deviceReset_command (s : State) : CommandFrame .deviceReset s s.deviceReset := by
  unfold State.deviceReset
  split
  · exact (OnlyServed.refl s).command _
  · constructor
    · exact nofun
    · exact nofun
    · exact nofun
    · exact fun _ => stopCommit_image s
    · exact stopCommit_pending s

theorem releaseReset_command (s : State) (k : BitVec 2) : CommandFrame (.deviceResetRelease k) s (s.releaseReset k) := by
  unfold State.releaseReset
  split
  · exact { clock := nofun, outputs := fun _ => rfl, store := fun _ => rfl, image := nofun, pending := rfl }
  · exact (OnlyServed.refl s).command _

theorem startEvents_served {s : State} {a : State → State} (ha : a ∈ s.startEvents) (u : State) :
    CommandFrame .tbStart u (a u) := by
  unfold State.startEvents at ha
  simp only [List.mem_append, List.mem_map, List.mem_flatMap, List.mem_ite_nil_right, List.mem_singleton] at ha
  obtain (⟨t, _, rfl⟩ | ⟨t, _, i, _, rfl⟩) | ⟨_, rfl⟩ := ha
  · exact (startLive_only u t).served.command _
  · exact (firstSample_only u t i).modes.served.command _
  · have h := fun v : State => (removeEntries_only v v.inhibits none true).edges.served
    exact { clock := nofun, outputs := fun _ => (h _).outputs, store := fun _ => (h _).store, image := fun _ => (h _).image,
            pending := (h _).pending }

theorem raiseStoreInvalid_command (s : State) : CommandFrame .tbStart s s.raiseStoreInvalid := by
  unfold State.raiseStoreInvalid
  split
  · exact { clock := nofun, outputs := fun _ => rfl, store := fun _ => rfl, image := fun _ => rfl, pending := rfl }
  · exact (OnlyServed.refl s).command _

theorem startCounting_command (s : State) : CommandFrame .tbStart s s.startCounting := by
  have clock : ∀ (v : State) x, CommandFrame .tbStart v (v.setClock x) := fun v x =>
    { clock := nofun, outputs := fun _ => rfl, store := fun _ => rfl, image := fun _ => rfl, pending := rfl }
  have samples : ∀ v : State, CommandFrame .tbStart v (v.startAttendance.markSamples true) := fun v =>
    { clock := nofun, outputs := fun _ => rfl, store := fun _ => rfl, image := fun _ => rfl, pending := rfl }
  have choices : ∀ (v : State) n, CommandFrame .tbStart v (v.setChoices n) := fun v n =>
    { clock := nofun, outputs := fun _ => rfl, store := fun _ => rfl, image := fun _ => rfl, pending := rfl }
  unfold State.startCounting
  split
  · exact ((clock s _).trans ((raiseStoreInvalid_command _).trans (samples _))).trans
      (takeAll_keeps (R := CommandFrame .tbStart) (fun s => (OnlyServed.refl s).command _) (fun _ _ _ => CommandFrame.trans) choices _
        (fun a ha u => startEvents_served ha u) _)
  · exact (OnlyServed.refl s).command _

/-! ### The frame of a command -/

/-- What a command may change of the time base, the outputs, the store and the image, said once for every command. -/
theorem exec_frame {c : Instr} {s u : State} (h : exec c s = .next u) : CommandFrame c s u := by
  cases c <;> obtain rfl := Host.Outcome.next.inj h
  case powerOn => exact powerOn_command s
  case deviceReset => exact deviceReset_command s
  case deviceResetRelease k => exact releaseReset_command s k
  case tbStart => exact startCounting_command s
  case powerLoss => exact powerLoss_command s
  case rawChange => exact (rawChange_only ..).modes.served.command _
  case filterAccept => exact whenRunning_served (filterExpire_only ..).modes.served _
  case stuckDeadline => exact whenRunning_served (stuckExpire_only ..).modes.served _
  case injectedEdgeDelivery => exact whenRunning_served (deliverInjected_only ..).served _
  case injectionStuckDeadline => exact whenRunning_served (injectionStuckExpire_only ..).modes.served _
  case quietDeadline => exact whenRunning_served (quietExpire_only ..).served _
  case windowDeadline => exact whenRunning_served (windowExpire_only ..).served _
  case wMaxDeadline => exact whenRunning_served (wMaxExpire_only ..).served _
  case confirmationDeadline => exact whenRunning_served (confirmationDue_only ..).served _
  case cameraFire => exact whenRunning_command fun _ => fireCamera_command ..
  case flashFire => exact whenRunning_command fun _ => fireFlash_command ..
  case pulseEnd => exact whenRunning_command fun _ => endPulse_command ..
  case chargeDeadline => exact whenRunning_command fun _ => chargeUnit_command ..
  case ageOutDeadline => exact whenRunning_command fun _ => ageOutOf_command ..
  case flinhAsserted => exact flinhHigh_command s _
  case flinhReleased => exact flinhLow_command s _
  case dataWrite => exact whenRunning_served (writeByte_served ..) _
  case statusWrite => exact whenRunning_served (writeStatus_served ..) _
  case dataRead => exact whenRunning_served (readByte_served ..) _
  case attendanceDeadline => exact whenRunning_served (attendanceExpire_served ..) _
  case portReset => exact (assertPortReset_served ..).command _
  case portResetRelease => exact (releasePortReset_served ..).command _
  case commitPage => exact whenRunning_command fun _ => commitPage_command s
  case commitEnd => exact whenRunning_command fun _ => commitEnd_command s
  case lineBreak => exact whenRunning_command fun _ => (updateMaint_command ..).trans (updateMaint_command ..)
  case framingError => exact whenRunning_command fun _ => updateMaint_command ..
  all_goals first
    | exact (request_served ..).command _
    | exact (receiveAll_line ..).command rfl

theorem exec_next (c : Instr) (s : State) : ∃ u, exec c s = .next u := by
  cases c <;> exact ⟨_, rfl⟩

/-! ### The obligations -/

/-- Settles O1: the queue's front is what a step matches on. -/
theorem stepRunsTheFrontCommand : Obligations.StepRunsTheFrontCommand := fun _ _ _ => rfl

/-- Settles O4, by the frame of a command. -/
theorem everyCommandAnswersANextState : Obligations.EveryCommandAnswersANextState := by
  intro c s
  obtain ⟨u, hu⟩ := exec_next c s
  exact ⟨u, hu, (exec_frame hu).pending⟩

/-- Settles O5, by the frame of a command: each list of exceptions is the class of commands that may change the block. -/
theorem whoMayChangeTimeOutputsStoreAndImage : Obligations.WhoMayChangeTimeOutputsStoreAndImage := by
  intro c s u hu
  have h := exec_frame hu
  refine ⟨fun h1 h2 h3 h4 h5 => h.clock ?_, fun h1 h2 h3 h4 h5 h6 => h.outputs ?_, fun h1 h2 h3 h4 h5 => h.store ?_,
    fun h1 h2 h3 h4 h5 h6 h7 h8 h9 h10 h11 h12 => h.image ?_⟩
  · cases c <;> first | rfl | simp at h1 h2 h3 h4 h5
  · cases c <;> first | rfl | simp at h1 h2 h3 h4 h5 h6
  · cases c <;> first | rfl | simp at h1 h2 h3 h4 h5
  · cases c <;> first | rfl | simp at h1 h2 h3 h4 h5 h6 h7 h8 h9 h10 h11 h12

end Sys2Proof.Machine
end

section
/-! PROOFS. What a change of the part keeps of its invariants, block by block: memory, tracks and passages, the record table, the lists and
units, the ports. Every invariant of EveryStepKeeps… is the soundness of one or two blocks, and Steady says of a change that it keeps them all,
so that the meanings are gone through once. -/

namespace Sys2Proof.Machine

/-! ### Soundness of a block -/

/-- The memories and the commit in flight as MemoryInv has them. -/
structure MemorySound (store image : Memory) (commit : Option CommitWrite) : Prop where
  store : Memory.wf store
  image : Memory.wf image
  commit : ∀ c, commit = some c → c.page ≤ 31 ∧ c.bytes.length = 16

/-- The tracks and the passages as TracksInv and PassagesInv have them, but for the flash unit snapshot. -/
structure TracksSound (passages : PerTrack (Option Passage)) (next : Nat) (tracks : PerTrack TrackControl) : Prop where
  idle : ∀ t, (tracks.get t).mode = .out → passages.get t = none
  snapshot : ∀ t, (tracks.get t).snapshot.isSome = true ↔ (tracks.get t).mode ≠ .out
  script : ∀ t, (tracks.get t).injections ≠ [] → (tracks.get t).mode = .test
  spacing : ∀ t snap, (tracks.get t).snapshot = some snap →
    snap.config.xW1 + 200 ≤ snap.config.xW2 ∧ snap.config.xW2 ≤ snap.config.xW1 + 4000
  next : 1 ≤ next ∧ next ≤ 65535
  passages : ∀ t p, passages.get t = some p → p.Sound

/-- A WAITING record is PLANNED, and only a WAITING record holds a confirmation deadline or an overdue mark. -/
structure HeadRecord.Sound (r : HeadRecord) : Prop where
  waiting : r.confirmation = .waiting → r.state = .planned
  settled : r.confirmation ≠ .waiting → r.confirmAt = none ∧ r.overdue = false

/-- The record table as TableInv has it. -/
structure TableSound (x : RecordTable) : Prop where
  size : x.records.length ≤ 16
  distinct : (x.records.map (·.number)).Nodup
  numbers : ∀ r ∈ x.records, 1 ≤ r.number ∧ r.number ≤ 65535
  next : 1 ≤ x.next ∧ x.next ≤ 65535
  records : ∀ r ∈ x.records, r.Sound

/-- The lists, the bookings and the inhibit as ListsInv and InhibitInv have them while TB counts. -/
structure ListsSound (tb : Time) (triggers : List Entry) (tracks : PerTrack TrackControl) (units : PerUnit FlashUnit)
    (inhibit : Inhibit) : Prop where
  size : triggers.length ≤ 32
  ordered : triggers.Pairwise fun a b => (a.fireAt - tb).toNat ≤ (b.fireAt - tb).toNat
  injections : ∀ t, (tracks.get t).injections.length ≤ 16
  script : ∀ t, (tracks.get t).injections.Pairwise fun a b => (a.time - tb).toNat ≤ (b.time - tb).toNat
  bookings : ∀ u, (units.get u).bookings.length ≤ 4
  booked : ∀ u, (units.get u).bookings.Perm ((triggers.filter fun e => e.output == .fire u).map (·.fireAt))
  asserted : inhibit.asserted = true → (∀ u, (units.get u).state = .inhibited) ∧ ∀ e ∈ triggers, e.isCamera = true
  released : inhibit.asserted = false → ∀ u, (units.get u).state ≠ .inhibited

/-- A port whose frame is being performed: nothing is loaded that its frame's reply would have to wait for, and the reply slot is empty. -/
structure Port.Performing (x : Port) : Prop where
  executing : x.executing = true
  reply : x.reply = none
  queue : x.queue.length ≤ 32
  dropped : x.dropped ≤ 255
  boundary : x.inProgress = none → x.outReg = none
  output : ∀ m, x.inProgress = some m → x.outReg = m.bytes[m.position]? ∧ m.position < m.bytes.length ∧ m.isReply = false
  messages : ∀ n ∈ x.queue, 3 ≤ n.length

/-- A change of a port keeps it sound, and keeps it performing where it performs. -/
structure PortKeeps (x y : Port) : Prop where
  sound : x.Sound → y.Sound
  performing : x.Performing → y.Performing

theorem PortKeeps.refl (x : Port) : PortKeeps x x := ⟨id, id⟩

theorem PortKeeps.trans {x y z : Port} (h : PortKeeps x y) (k : PortKeeps y z) : PortKeeps x z :=
  ⟨k.sound ∘ h.sound, k.performing ∘ h.performing⟩

/-! ### The blocks are the invariants -/

theorem memoryInv_iff {s : State} : MemoryInv s ↔ MemorySound s.store s.image s.maint.commit :=
  ⟨fun h => ⟨h.store, h.image, h.commit⟩, fun h => ⟨h.store, h.image, h.commit⟩⟩

theorem tableInv_iff {s : State} : TableInv s ↔ TableSound s.table :=
  ⟨fun h => ⟨h.size, h.distinct, h.numbers, h.next, fun r hr => ⟨h.waiting r hr, h.settled r hr⟩⟩,
   fun h => ⟨h.size, h.distinct, h.numbers, h.next, fun r hr => (h.records r hr).waiting, fun r hr => (h.records r hr).settled⟩⟩

theorem TracksInv.sound {s : State} (h : TracksInv s) (k : PassagesInv s) : TracksSound s.passages s.nextPassage s.tracks :=
  ⟨h.idle, h.snapshot, h.script, h.spacing, k.next, k.passages⟩

theorem ListsInv.sound {s : State} (h : ListsInv s) (k : InhibitInv s) :
    ListsSound s.clock.tb s.triggers s.tracks s.units s.inhibit :=
  ⟨h.size, h.ordered, h.injections, h.script, h.bookings, h.booked, k.asserted, k.released⟩

/-! ### A change that keeps every block sound -/

/-- `t` has every block sound that `s` has. -/
structure Keeps (s t : State) : Prop where
  memory : MemorySound s.store s.image s.maint.commit → MemorySound t.store t.image t.maint.commit
  tracks : TracksSound s.passages s.nextPassage s.tracks → TracksSound t.passages t.nextPassage t.tracks
  table : TableSound s.table → TableSound t.table
  lists : ListsSound s.clock.tb s.triggers s.tracks s.units s.inhibit → ListsSound t.clock.tb t.triggers t.tracks t.units t.inhibit
  ports : ∀ p, PortKeeps (s.ports.get p) (t.ports.get p)

theorem Keeps.refl (s : State) : Keeps s s := ⟨id, id, id, id, fun _ => .refl _⟩

theorem Keeps.trans {s t u : State} (h : Keeps s t) (k : Keeps t u) : Keeps s u :=
  ⟨k.memory ∘ h.memory, k.tracks ∘ h.tracks, k.table ∘ h.table, k.lists ∘ h.lists, fun p => (h.ports p).trans (k.ports p)⟩

/-- `t` has every block sound that `s` has, and has opened no passage. -/
structure Steady (s t : State) : Prop where
  memory : MemorySound s.store s.image s.maint.commit → MemorySound t.store t.image t.maint.commit
  tracks : TracksSound s.passages s.nextPassage s.tracks → TracksSound t.passages t.nextPassage t.tracks
  table : TableSound s.table → TableSound t.table
  lists : ListsSound s.clock.tb s.triggers s.tracks s.units s.inhibit → ListsSound t.clock.tb t.triggers t.tracks t.units t.inhibit
  ports : ∀ p, PortKeeps (s.ports.get p) (t.ports.get p)
  closed : ∀ k, s.passages.get k = none → t.passages.get k = none

theorem Steady.keeps {s t : State} (h : Steady s t) : Keeps s t := ⟨h.memory, h.tracks, h.table, h.lists, h.ports⟩

theorem Steady.refl (s : State) : Steady s s := ⟨id, id, id, id, fun _ => .refl _, fun _ => id⟩

theorem Steady.trans {s t u : State} (h : Steady s t) (k : Steady t u) : Steady s u :=
  ⟨k.memory ∘ h.memory, k.tracks ∘ h.tracks, k.table ∘ h.table, k.lists ∘ h.lists, fun p => (h.ports p).trans (k.ports p),
   fun p hp => k.closed p (h.closed p hp)⟩

/-! ### Ports and fault capture -/

theorem Port.offer_refused {x : Port} (h : x.canQueue = false) (n : Notice) : x.offer n = { x with dropped := min (x.dropped + 1) 255 } := by
  simp [Port.offer, h]

/-- A notice waits in the queue behind a message in progress, or behind the reply of the frame that is being performed. -/
theorem Port.offer_queued {x : Port} (h : x.canQueue = true) (hwait : x.executing = true ∨ x.inProgress ≠ none) (n : Notice) :
    x.offer n = x.enqueue n := by
  by_cases hexec : x.executing = true
  · exact Port.offer_of_executing h hexec n
  · obtain ⟨m, hm⟩ := Option.ne_none_iff_exists'.mp (hwait.resolve_left hexec)
    have harb : (x.enqueue n).arbitrate = x.enqueue n := by
      unfold Port.arbitrate
      simp only [show (x.enqueue n).inProgress = some m from hm]
    simp [Port.offer, h, hexec, harb]

/-- A notice offered to an idle port is loaded at once. -/
theorem Port.offer_loaded {x : Port} (h : x.canQueue = true) (hexec : x.executing = false) (hidle : x.inProgress = none)
    (hreply : x.reply = none) (hqueue : x.queue = []) (n : Notice) :
    x.offer n = { x with
      dropped := 0
      inProgress := some { bytes := n.kind :: .ofNat 8 x.dropped :: .ofNat 8 n.body.length :: n.body, position := 0, isReply := false }
      outReg := some n.kind } := by
  simp [Port.offer, h, hexec, Port.enqueue, Port.arbitrate, Port.load, hidle, hreply, hqueue]

theorem Port.Sound.offer {x : Port} (h : x.Sound) (n : Notice) : (x.offer n).Sound := by
  cases hq : x.canQueue with
  | false =>
    rw [Port.offer_refused hq]
    exact { h with dropped := Nat.min_le_right _ _ }
  | true =>
    have hroom := (Port.canQueue_iff.mp hq).2.2
    by_cases hidle : x.inProgress = none
    · obtain ⟨hreply, hqueue, -⟩ := h.boundary hidle
      rw [Port.offer_loaded hq h.idle hidle hreply hqueue]
      exact { h with
        dropped := Nat.zero_le _
        boundary := nofun
        output := by rintro m ⟨⟩; exact ⟨rfl, by simp⟩
        replyOut := by simp [hreply] }
    · rw [Port.offer_queued hq (.inr hidle)]
      exact { h with
        queue := by
          simp only [Port.enqueue, List.length_append, List.length_singleton]
          unfold queueLimit at hroom
          omega
        dropped := Nat.zero_le _
        boundary := fun hnone => absurd hnone hidle
        messages := by
          refine ⟨fun m hm => ?_, h.messages.2⟩
          rcases List.mem_append.mp hm with hm | hm
          · exact h.messages.1 m hm
          · rw [List.mem_singleton.mp hm]
            simp }

theorem Port.Performing.offer {x : Port} (h : x.Performing) (n : Notice) : (x.offer n).Performing := by
  cases hq : x.canQueue with
  | false =>
    rw [Port.offer_refused hq]
    exact { h with dropped := Nat.min_le_right _ _ }
  | true =>
    have hroom := (Port.canQueue_iff.mp hq).2.2
    rw [Port.offer_queued hq (.inl h.executing)]
    exact { h with
      queue := by
        simp only [Port.enqueue, List.length_append, List.length_singleton]
        unfold queueLimit at hroom
        omega
      dropped := Nat.zero_le _
      messages := by
        intro m hm
        rcases List.mem_append.mp hm with hm | hm
        · exact h.messages m hm
        · rw [List.mem_singleton.mp hm]
          simp }

theorem PortKeeps.offer (x : Port) (n : Notice) : PortKeeps x (x.offer n) := ⟨fun h => h.offer n, fun h => h.offer n⟩

/-- The masks, the attendance, the reset and the byte last read bear on no rule of a port. -/
theorem PortKeeps.registers (x : Port) (inReset : Bool) (tracks : BitVec 2) (classes : BitVec 5) (attendance : Attendance)
    (attendAt : Option Time) (lastRead : Byte) :
    PortKeeps x { x with inReset := inReset, trackMask := tracks, classMask := classes, attendance := attendance, attendAt := attendAt,
                         lastRead := lastRead } :=
  ⟨fun h => { h with }, fun h => { h with }⟩

theorem offer_steady (s : State) (named : PortId → Port → Bool) (n : Notice) : Steady s (s.offer named n) where
  memory := id
  tracks := id
  table := id
  lists := id
  ports p := by
    rw [State.offer, setPorts_ports, PerPort.get_tabulate]
    split
    · exact .offer ..
    · exact .refl _
  closed _ := id

theorem setFaults_steady (s : State) (x : FaultCapture) : Steady s (s.setFaults x) := ⟨id, id, id, id, fun _ => .refl _, fun _ => id⟩

theorem raise_steady (s : State) (f : RaisedFault) : Steady s (s.raise f) := (setFaults_steady s _).trans (offer_steady ..)

/-- A change of one port that keeps it keeps every block. -/
theorem updatePort_steady (s : State) (p : PortId) {f : Port → Port} (h : PortKeeps (s.ports.get p) (f (s.ports.get p))) :
    Steady s (s.updatePort p f) where
  memory := id
  tracks := id
  table := id
  lists := id
  ports q := by
    by_cases hq : p = q
    · subst hq
      rwa [updatePort_get]
    · rw [updatePort_get_ne _ _ hq]
      exact .refl _
  closed _ := id

/-! ### Changes of blocks that bear on no rule -/

theorem setHeads_steady (s : State) (x : PerTrack (PerBeam HeadUnit)) : Steady s (s.setHeads x) := ⟨id, id, id, id, fun _ => .refl _, fun _ => id⟩

theorem setInputs_steady (s : State) (x : PerTrack (PerInput Conditioner)) : Steady s (s.setInputs x) := ⟨id, id, id, id, fun _ => .refl _, fun _ => id⟩

theorem setStations_steady (s : State) (x : PerStation Occupancy) : Steady s (s.setStations x) := ⟨id, id, id, id, fun _ => .refl _, fun _ => id⟩

theorem setOutputs_steady (s : State) (x : Outputs) : Steady s (s.setOutputs x) := ⟨id, id, id, id, fun _ => .refl _, fun _ => id⟩

theorem setUnitSnapshot_steady (s : State) (x : Option (PerUnit UnitConfig)) : Steady s (s.setUnitSnapshot x) :=
  ⟨id, id, id, id, fun _ => .refl _, fun _ => id⟩

theorem setBindings_steady (s : State) (x : PerStation (Option PortId)) : Steady s (s.setBindings x) := ⟨id, id, id, id, fun _ => .refl _, fun _ => id⟩

theorem setChoices_steady (s : State) (n : Nat) : Steady s (s.setChoices n) := ⟨id, id, id, id, fun _ => .refl _, fun _ => id⟩

theorem setPending_steady (s : State) (l : List Instr) : Steady s (s.setPending l) := ⟨id, id, id, id, fun _ => .refl _, fun _ => id⟩

/-! ### The record table -/

/-- A change of a record keeps its number, and keeps it sound. -/
structure RecordKeeps (r r' : HeadRecord) : Prop where
  number : r'.number = r.number
  sound : r.Sound → r'.Sound

theorem RecordKeeps.refl (r : HeadRecord) : RecordKeeps r r := ⟨rfl, id⟩

/-- A change of a record that leaves its number, its state and its confirmation with deadline and mark. -/
theorem RecordKeeps.of_eq {r r' : HeadRecord} (number : r'.number = r.number) (state : r'.state = r.state)
    (confirmation : r'.confirmation = r.confirmation) (confirmAt : r'.confirmAt = r.confirmAt) (overdue : r'.overdue = r.overdue) :
    RecordKeeps r r' :=
  ⟨number, fun h => ⟨fun hw => state.trans (h.waiting (confirmation ▸ hw)),
    fun hw => confirmAt ▸ overdue ▸ h.settled fun he => hw (confirmation.trans he)⟩⟩

theorem TableSound.map {x : RecordTable} (h : TableSound x) {f : HeadRecord → HeadRecord} (hf : ∀ r ∈ x.records, RecordKeeps r (f r)) :
    TableSound { x with records := x.records.map f } where
  size := by simpa using h.size
  distinct := by
    have hsame : (x.records.map f).map (·.number) = x.records.map (·.number) := by
      rw [List.map_map]
      exact List.map_congr_left fun r hr => (hf r hr).number
    exact hsame ▸ h.distinct
  numbers := by
    intro _ hmem
    obtain ⟨r, hr, rfl⟩ := List.mem_map.mp hmem
    rw [(hf r hr).number]
    exact h.numbers r hr
  next := h.next
  records := by
    intro _ hmem
    obtain ⟨r, hr, rfl⟩ := List.mem_map.mp hmem
    exact (hf r hr).sound (h.records r hr)

theorem mapRecords_steady (s : State) {f : HeadRecord → HeadRecord} (hf : TableSound s.table → ∀ r ∈ s.table.records, RecordKeeps r (f r)) :
    Steady s (s.mapRecords f) where
  memory := id
  tracks := id
  table h := h.map (hf h)
  lists := id
  ports _ := .refl _
  closed _ := id

theorem updateRecord_steady (s : State) (n : Nat) {f : HeadRecord → HeadRecord}
    (hf : TableSound s.table → ∀ r ∈ s.table.records, r.number = n → RecordKeeps r (f r)) : Steady s (s.updateRecord n f) :=
  mapRecords_steady s fun h r hr => by
    split
    · exact hf h r hr ‹_›
    · exact .refl r

/-- The table holds at most one record of a number. -/
theorem TableSound.unique {x : RecordTable} (h : TableSound x) {r r' : HeadRecord} (hr : r ∈ x.records) (hr' : r' ∈ x.records)
    (hn : r.number = r'.number) : r = r' :=
  List.inj_on_of_nodup_map h.distinct hr hr' hn

theorem record_mem {s : State} {n : Nat} {r : HeadRecord} (h : s.record n = some r) : r ∈ s.table.records := List.mem_of_find?_eq_some h

theorem record_number {s : State} {n : Nat} {r : HeadRecord} (h : s.record n = some r) : r.number = n := by
  simpa using List.find?_some h

theorem record_unique {s : State} (h : TableSound s.table) {n : Nat} {r r' : HeadRecord} (hr : s.record n = some r)
    (hr' : r' ∈ s.table.records) (hn : r'.number = n) : r' = r :=
  h.unique hr' (record_mem hr) (hn.trans (record_number hr).symm)

theorem recordIs_iff {s : State} {n : Nat} {x : RecordState} : s.recordIs n x = true ↔ ∃ r, s.record n = some r ∧ r.state = x := by
  unfold State.recordIs
  cases h : s.record n <;> simp

theorem offerRecordFinal_steady (s : State) (n : Nat) : Steady s (s.offerRecordFinal n) := by
  unfold State.offerRecordFinal
  split
  · exact .refl s
  · exact offer_steady ..

/-- A record that is not WAITING may enter any state. -/
theorem finishRecord_steady (s : State) (n : Nat) (x : RecordState)
    (h : TableSound s.table → ∀ r ∈ s.table.records, r.number = n → r.confirmation ≠ .waiting) : Steady s (s.finishRecord n x) :=
  (updateRecord_steady s n (f := fun r => { r with state := x }) fun ht r hr hn => ⟨rfl, fun hs => ⟨fun hw => absurd hw (h ht r hr hn), hs.settled⟩⟩).trans
    (offerRecordFinal_steady ..)

theorem testDone_steady (s : State) (n : Nat) : Steady s (s.testDone n) := by
  unfold State.testDone
  split
  · exact .refl s
  · rename_i r hr
    split
    · refine finishRecord_steady s n .done fun ht r' hr' hn => ?_
      obtain rfl := record_unique ht hr hr' hn
      rename_i hdone
      simp only [HeadRecord.isDone, Bool.and_eq_true, bne_iff_ne] at hdone
      exact hdone.1.2
    · exact .refl s

theorem updateEntry_steady (s : State) (n : Nat) (st : Station) (p : Option PortId) (f : StationEntry → StationEntry) :
    Steady s (s.updateEntry n st p f) := by
  have h := updateRecord_steady s n (f := fun r => { r with entries := r.entries.map fun e => if e.station = st then f e else e })
    fun _ _ _ _ => .of_eq rfl rfl rfl rfl rfl
  unfold State.updateEntry
  split
  · exact .refl s
  · split
    · exact .refl s
    · split
      · dsimp only
        split
        · exact h.trans (offer_steady ..)
        · exact h
      · exact .refl s

theorem cancelStation_steady (s : State) (gone : List Entry) (lost : Option PortId) (d : Bool) (n : Nat) (st : Station) :
    Steady s (s.cancelStation gone lost d n st) := by
  unfold State.cancelStation
  dsimp only
  split
  · exact .refl s
  · split
    · exact (updateEntry_steady ..).trans (testDone_steady ..)
    · exact updateEntry_steady ..

end Sys2Proof.Machine
end

section
/-! PROOFS. The trigger list, the booking lists and the flash units (chapters 5 and 6): what an insertion, a reservation, a firing and a removal
leave in them, and that each keeps the list in order with one booking for each FLASH entry. -/

namespace Sys2Proof.Machine

/-! ### Insertion in the order of a key (R119, R145) -/

section Placing

variable {α : Type} (key : α → Nat)

/-- The list with `e` inserted behind every element whose key is not larger. -/
def placeBy (l : List α) (e : α) : List α :=
  l.takeWhile (fun x => decide (key x ≤ key e)) ++ e :: l.dropWhile (fun x => decide (key x ≤ key e))

theorem placeBy_nil (e : α) : placeBy key [] e = [e] := rfl

theorem placeBy_cons (x : α) (l : List α) (e : α) :
    placeBy key (x :: l) e = if key e < key x then e :: x :: l else x :: placeBy key l e := by
  by_cases h : key e < key x
  · simp [placeBy, h, Nat.not_le.mpr h]
  · simp [placeBy, h, Nat.not_lt.mp h]

theorem placeBy_perm (l : List α) (e : α) : (placeBy key l e).Perm (e :: l) := by
  refine List.perm_middle.trans ?_
  rw [List.takeWhile_append_dropWhile]

theorem placeBy_sorted {l : List α} (h : l.Pairwise fun a b => key a ≤ key b) (e : α) :
    (placeBy key l e).Pairwise fun a b => key a ≤ key b := by
  induction l with
  | nil => simp [placeBy_nil]
  | cons x l ih =>
    obtain ⟨hx, hl⟩ := List.pairwise_cons.mp h
    rw [placeBy_cons]
    split
    · refine List.pairwise_cons.mpr ⟨fun y hy => ?_, h⟩
      rcases List.mem_cons.mp hy with rfl | hy
      · omega
      · have := hx y hy
        omega
    · refine List.pairwise_cons.mpr ⟨fun y hy => ?_, ih hl⟩
      rcases List.mem_cons.mp ((placeBy_perm key l e).mem_iff.mp hy) with rfl | hy
      · omega
      · exact hx y hy

theorem foldl_placeBy_perm (new l : List α) : (new.foldl (placeBy key) l).Perm (new ++ l) := by
  induction new generalizing l with
  | nil => exact .refl _
  | cons e new ih => exact (ih _).trans ((List.Perm.append_left new (placeBy_perm key l e)).trans List.perm_middle)

theorem foldl_placeBy_sorted (new : List α) {l : List α} (h : l.Pairwise fun a b => key a ≤ key b) :
    (new.foldl (placeBy key) l).Pairwise fun a b => key a ≤ key b := by
  induction new generalizing l with
  | nil => exact h
  | cons e new ih => exact ih (placeBy_sorted key h e)

end Placing

theorem insertEntry_eq (now : Time) (e : Entry) (l : List Entry) : insertEntry now e l = placeBy (fun x => (x.fireAt - now).toNat) l e := by
  induction l with
  | nil => rfl
  | cons x l ih => rw [placeBy_cons, insertEntry, ih]; rfl

theorem insertTime_eq (now x : Time) (l : List Time) : insertTime now x l = placeBy (fun y => (y - now).toNat) l x := by
  induction l with
  | nil => rfl
  | cons y l ih => rw [placeBy_cons, insertTime, ih]; rfl

theorem insertInjected_eq (now : Time) (e : InjectedEdge) (l : List InjectedEdge) :
    insertInjected now e l = placeBy (fun x => (x.time - now).toNat) l e := by
  induction l with
  | nil => rfl
  | cons x l ih => rw [placeBy_cons, insertInjected, ih]; rfl

/-! ### The fire times of a unit's FLASH entries -/

/-- The fire times of the FLASH entries of unit `u`, in the order of the list. -/
def flashTimes (u : FlashId) (l : List Entry) : List Time := (l.filter fun e => e.output == .fire u).map (·.fireAt)

theorem flashTimes_perm {l m : List Entry} (u : FlashId) (h : l.Perm m) : (flashTimes u l).Perm (flashTimes u m) := (h.filter _).map _

theorem flashTimes_append (u : FlashId) (l m : List Entry) : flashTimes u (l ++ m) = flashTimes u l ++ flashTimes u m := by
  simp [flashTimes]

theorem flashTimes_cons_fire (u : FlashId) {e : Entry} (h : e.output = .fire u) (l : List Entry) :
    flashTimes u (e :: l) = e.fireAt :: flashTimes u l := by
  simp [flashTimes, h]

theorem flashTimes_cons_other (u : FlashId) {e : Entry} (h : e.output ≠ .fire u) (l : List Entry) :
    flashTimes u (e :: l) = flashTimes u l := by
  simp [flashTimes, h]

/-! ### Removal without firing (R111, R129) -/

/-- A removal takes the fire time of each FLASH entry gone out of its unit's booking list, and leaves the units otherwise. -/
theorem releaseBookings_get (gone : List Entry) (units : PerUnit FlashUnit) (u : FlashId) :
    (releaseBookings gone units).get u = { units.get u with bookings := (units.get u).bookings.diff (flashTimes u gone) } := by
  induction gone generalizing units with
  | nil => rfl
  | cons e gone ih =>
    have hstep : releaseBookings (e :: gone) units = releaseBookings gone (match e.output with
      | .cam _ => units
      | .fire u => units.modify u fun f => { f with bookings := f.bookings.erase e.fireAt }) := rfl
    rw [hstep, ih]
    cases ho : e.output with
    | cam st => rw [flashTimes_cons_other u (by simp [ho])]
    | fire v =>
      by_cases hv : v = u
      · subst hv
        simp [flashTimes_cons_fire v ho]
      · rw [flashTimes_cons_other u (by simp [ho, hv])]
        simp [hv]

theorem append_diff_self {α : Type} [BEq α] [LawfulBEq α] (l m : List α) : (l ++ m).diff l = m := by
  induction l with
  | nil => rfl
  | cons a l ih => simpa using ih

section Removal

variable {tb : Time} {triggers : List Entry} {tracks : PerTrack TrackControl} {units : PerUnit FlashUnit} {inhibit : Inhibit}

theorem ListsSound.remove (h : ListsSound tb triggers tracks units inhibit) (sel : Entry → Bool) :
    ListsSound tb (triggers.filter fun e => !sel e) tracks (releaseBookings (triggers.filter sel) units) inhibit where
  size := (List.length_filter_le ..).trans h.size
  ordered := h.ordered.filter _
  injections := h.injections
  script := h.script
  bookings u := by
    rw [releaseBookings_get]
    exact (List.diff_sublist ..).length_le.trans (h.bookings u)
  booked u := by
    rw [releaseBookings_get]
    have hsplit : (units.get u).bookings.Perm (flashTimes u (triggers.filter sel) ++ flashTimes u (triggers.filter fun e => !sel e)) := by
      rw [← flashTimes_append]
      exact (h.booked u).trans (flashTimes_perm u (List.filter_append_perm sel triggers).symm)
    exact (hsplit.diff_right _).trans (.of_eq (append_diff_self ..))
  asserted ha := by
    obtain ⟨hunits, hentries⟩ := h.asserted ha
    exact ⟨fun u => by rw [releaseBookings_get]; exact hunits u, fun e he => hentries e (List.mem_filter.mp he).1⟩
  released hr u := by
    rw [releaseBookings_get]
    exact h.released hr u

end Removal

/-- The station entries of a removal are cancelled record by record, station by station. -/
theorem cancelStations_steady (s : State) (gone : List Entry) (lost : Option PortId) (d : Bool) (numbers : List Nat) :
    Steady s (numbers.foldl (fun s n => Station.all.foldl (fun s st => s.cancelStation gone lost d n st) s) s) :=
  foldl_keeps Steady.refl (fun _ _ _ => Steady.trans)
    (fun s n => foldl_keeps Steady.refl (fun _ _ _ => Steady.trans) (fun s st => cancelStation_steady s _ lost d n st) _ s) _ _

theorem removeEntries_steady (s : State) (sel : Entry → Bool) (lost : Option PortId) (d : Bool) : Steady s (s.removeEntries sel lost d) := by
  unfold State.removeEntries
  exact Steady.trans (t := (s.setTriggers (s.triggers.filter fun e => !sel e)).setUnits
    (releaseBookings (s.triggers.filter sel) s.units)) ⟨id, id, id, fun h => h.remove sel, fun _ => .refl _, fun _ => id⟩
    (cancelStations_steady ..)

/-! ### Reservation (R105, R119, R120) -/

/-- The flash units that step 8 books for a plan. -/
def bookedUnits (c : StationConfig) (p : StationPlan) : List FlashId := if p.flash = .booked then unitsOf c.flashSet else []

theorem unitsOf_nodup (set : BitVec 6) : (unitsOf set).Nodup := List.Nodup.filter _ (by decide)

theorem bookedUnits_nodup (c : StationConfig) (p : StationPlan) : (bookedUnits c p).Nodup := by
  unfold bookedUnits
  split
  · exact unitsOf_nodup _
  · exact List.nodup_nil

/-- The entries of a plan: the CAMERA entry, and a FLASH entry for each booked unit. -/
def planEntries (n : Nat) (st : Station) (c : StationConfig) (p : StationPlan) : List Entry :=
  { fireAt := p.trigger, output := .cam st, record := n, station := st } ::
    (bookedUnits c p).map fun u => { fireAt := p.flashTime, output := .fire u, record := n, station := st }

theorem PerUnit.foldl_modify_get {α : Type} (f : α → α) {l : List FlashId} (hl : l.Nodup) (b : PerUnit α) (u : FlashId) :
    (l.foldl (fun b u => b.modify u f) b).get u = if u ∈ l then f (b.get u) else b.get u := by
  induction l generalizing b with
  | nil => simp
  | cons v l ih =>
    obtain ⟨hv, hl⟩ := List.nodup_cons.mp hl
    rw [List.foldl_cons, ih hl, PerUnit.get_modify]
    by_cases huv : v = u
    · subst huv
      simp [hv]
    · simp [huv, Ne.symm huv]

section Reserve

variable (s : State) (n : Nat) (st : Station) (c : StationConfig) (p : StationPlan)

theorem reserve_triggers : (s.reserve n st c p).triggers =
    (planEntries n st c p).foldl (placeBy fun x => (x.fireAt - s.clock.tb).toNat) s.triggers := by
  simp only [planEntries, List.foldl_cons, List.foldl_map, ← insertEntry_eq]
  rfl

theorem reserve_units_get (u : FlashId) : (s.reserve n st c p).units.get u =
    if u ∈ bookedUnits c p then
      { s.units.get u with bookings := placeBy (fun x => (x - s.clock.tb).toNat) (s.units.get u).bookings p.flashTime }
    else s.units.get u := by
  rw [← insertTime_eq]
  exact PerUnit.foldl_modify_get _ (bookedUnits_nodup c p) s.units u

theorem flashTimes_planEntries (u : FlashId) : flashTimes u (planEntries n st c p) = if u ∈ bookedUnits c p then [p.flashTime] else [] := by
  have hunits : ∀ l : List FlashId, l.Nodup →
      flashTimes u (l.map fun v => { fireAt := p.flashTime, output := .fire v, record := n, station := st }) =
        if u ∈ l then [p.flashTime] else [] := by
    intro l hl
    induction l with
    | nil => rfl
    | cons v l ih =>
      obtain ⟨hv, hl⟩ := List.nodup_cons.mp hl
      rw [List.map_cons]
      by_cases huv : v = u
      · subst huv
        rw [flashTimes_cons_fire v rfl, ih hl]
        simp [hv]
      · rw [flashTimes_cons_other u (by simpa using huv), ih hl]
        simp [Ne.symm huv]
  rw [planEntries, flashTimes_cons_other u (by simp)]
  exact hunits _ (bookedUnits_nodup c p)

variable {s n st c p}

/-- A reservation that finds room in the list and in each booking list keeps the lists sound. -/
theorem reserve_steady (hroom : s.triggers.length + 1 + (bookedUnits c p).length ≤ 32)
    (hfree : ∀ u ∈ bookedUnits c p, s.inhibit.asserted = false ∧ (s.units.get u).bookings.length < 4) : Steady s (s.reserve n st c p) := by
  have hperm := foldl_placeBy_perm (fun x : Entry => (x.fireAt - s.clock.tb).toNat) (planEntries n st c p) s.triggers
  rw [← reserve_triggers] at hperm
  refine ⟨id, id, id, fun h => ?_, fun _ => .refl _, fun _ => id⟩
  constructor
  case size =>
    rw [hperm.length_eq]
    simp only [planEntries, List.length_append, List.length_cons, List.length_map]
    omega
  case ordered => exact reserve_triggers s n st c p ▸ foldl_placeBy_sorted _ _ h.ordered
  case injections => exact h.injections
  case script => exact h.script
  case bookings =>
    intro u
    rw [reserve_units_get]
    split
    · rename_i hu
      have := (hfree u hu).2
      simp only [(placeBy_perm ..).length_eq, List.length_cons]
      omega
    · exact h.bookings u
  case booked =>
    intro u
    refine List.Perm.trans ?_ (flashTimes_perm u hperm).symm
    rw [flashTimes_append, flashTimes_planEntries, reserve_units_get]
    split
    · exact (placeBy_perm ..).trans ((h.booked u).cons _)
    · exact h.booked u
  case asserted =>
    intro ha
    obtain ⟨hunits, hentries⟩ := h.asserted ha
    refine ⟨fun u => ?_, fun e he => ?_⟩
    · rw [reserve_units_get]
      split <;> exact hunits u
    · rcases List.mem_append.mp (hperm.mem_iff.mp he) with hnew | hold
      · rcases List.mem_cons.mp hnew with rfl | hflash
        · rfl
        · obtain ⟨u, hu, -⟩ := List.mem_map.mp hflash
          exact absurd (hfree u hu).1 (by simp [show s.inhibit.asserted = true from ha])
      · exact hentries e hold
  case released =>
    intro hr u
    rw [reserve_units_get]
    split <;> exact h.released hr u

end Reserve

/-! ### Firing and the units' deadlines (R107, R108, R123, R124) -/

/-- A change of the units that leaves every booking list, and every unit as INHIBITED or not as it is, keeps the lists sound. -/
theorem setUnits_steady (s : State) (x : PerUnit FlashUnit) (hbookings : ∀ u, (x.get u).bookings = (s.units.get u).bookings)
    (hstate : ∀ u, (x.get u).state = .inhibited ↔ (s.units.get u).state = .inhibited) : Steady s (s.setUnits x) := by
  refine ⟨id, id, id, fun h => ?_, fun _ => .refl _, fun _ => id⟩
  exact
    { h with
      bookings := fun u => hbookings u ▸ h.bookings u
      booked := fun u => hbookings u ▸ h.booked u
      asserted := fun ha => ⟨fun u => (hstate u).mpr ((h.asserted ha).1 u), (h.asserted ha).2⟩
      released := fun hr u hu => h.released hr u ((hstate u).mp hu) }

theorem chargeUnit_steady (s : State) (u : FlashId) : Steady s (s.chargeUnit u) := by
  unfold State.chargeUnit
  split
  · refine setUnits_steady s _ (fun v => ?_) (fun v => ?_)
    · rw [PerUnit.get_modify]
      split <;> rfl
    · rw [PerUnit.get_modify]
      split
      · cases h : (s.units.get v).state <;> simp [FlashUnit.charged, h]
      · rfl
  · exact .refl s

theorem ageOutOf_steady (s : State) (o : OutputLine) : Steady s (s.ageOutOf o) := by
  unfold State.ageOutOf
  cases o with
  | cam st =>
    dsimp only
    split
    · exact setStations_steady ..
    · exact .refl s
  | fire u =>
    dsimp only
    split
    · refine setUnits_steady s _ (fun v => ?_) (fun v => ?_) <;> rw [PerUnit.get_modify] <;> split <;> rfl
    · exact .refl s

theorem endPulse_steady (s : State) (o : OutputLine) : Steady s (s.endPulse o) := by
  unfold State.endPulse
  cases o <;> dsimp only <;> split
  · exact setOutputs_steady ..
  · exact .refl s
  · exact setOutputs_steady ..
  · exact .refl s

/-- An entry that leaves the list with no booking to release is a CAMERA entry. -/
theorem ListsSound.eraseCamera {tb : Time} {triggers : List Entry} {tracks : PerTrack TrackControl} {units : PerUnit FlashUnit}
    {inhibit : Inhibit} (h : ListsSound tb triggers tracks units inhibit) {e : Entry} (he : e ∈ triggers) {st : Station}
    (ho : e.output = .cam st) : ListsSound tb (triggers.erase e) tracks units inhibit :=
  { h with
    size := List.length_erase_le.trans h.size
    ordered := h.ordered.sublist List.erase_sublist
    booked := fun u => by
      refine (h.booked u).trans ((flashTimes_perm u (List.perm_cons_erase he)).trans ?_)
      rw [flashTimes_cons_other u (by simp [ho])]
      exact .refl _
    asserted := fun ha => ⟨(h.asserted ha).1, fun x hx => (h.asserted ha).2 x (List.mem_of_mem_erase hx)⟩ }

/-- A FLASH entry that fires leaves the list with its unit's booking; the unit is not INHIBITED, since an inhibited part lists no FLASH
entry. -/
theorem ListsSound.fireFlash {tb : Time} {triggers : List Entry} {tracks : PerTrack TrackControl} {units : PerUnit FlashUnit}
    {inhibit : Inhibit} (h : ListsSound tb triggers tracks units inhibit) {e : Entry} (he : e ∈ triggers) {u : FlashId}
    (ho : e.output = .fire u) (recharge : Nat) :
    ListsSound tb (triggers.erase e) tracks (units.modify u fun f => f.afterFire e.fireAt recharge) inhibit := by
  have hfree : inhibit.asserted = false := by
    by_contra hne
    simpa [Entry.isCamera, ho] using (h.asserted (by simpa using hne)).2 e he
  have hbooked : (units.get u).bookings.Perm (e.fireAt :: flashTimes u (triggers.erase e)) := by
    rw [← flashTimes_cons_fire u ho]
    exact (h.booked u).trans (flashTimes_perm u (List.perm_cons_erase he))
  exact
    { h with
      size := List.length_erase_le.trans h.size
      ordered := h.ordered.sublist List.erase_sublist
      bookings := fun v => by
        rw [PerUnit.get_modify]
        split
        · exact List.length_erase_le.trans (h.bookings v)
        · exact h.bookings v
      booked := fun v => by
        rw [PerUnit.get_modify]
        split
        · rename_i huv
          subst huv
          simpa [FlashUnit.afterFire, flashTimes] using hbooked.erase e.fireAt
        · rename_i huv
          refine (h.booked v).trans ((flashTimes_perm v (List.perm_cons_erase he)).trans ?_)
          rw [flashTimes_cons_other v (by simpa [ho] using huv)]
          exact .refl _
      asserted := fun ha => absurd ha (by simp [hfree])
      released := fun hr v => by
        rw [PerUnit.get_modify]
        split
        · simp [FlashUnit.afterFire]
        · exact h.released hr v }

theorem dueEntry_some {s : State} {o : OutputLine} {e : Entry} (h : s.dueEntry o = some e) :
    e ∈ s.triggers ∧ e.output = o ∧ e.fireAt = s.clock.tb := by
  have hp := List.find?_some h
  simp only [Bool.and_eq_true, beq_iff_eq] at hp
  exact ⟨List.mem_of_find?_eq_some h, hp.1, hp.2⟩

theorem fireCamera_steady (s : State) (st : Station) : Steady s (s.fireCamera st) := by
  unfold State.fireCamera
  split
  · exact .refl s
  · rename_i e he
    obtain ⟨hmem, ho, -⟩ := dueEntry_some he
    exact Steady.trans (t := (s.setTriggers (s.triggers.erase e))) ⟨id, id, id, fun h => h.eraseCamera hmem ho, fun _ => .refl _, fun _ => id⟩
      (((setOutputs_steady ..).trans (setStations_steady ..)).trans ((updateEntry_steady ..).trans (testDone_steady ..)))

theorem fireFlash_steady (s : State) (u : FlashId) : Steady s (s.fireFlash u) := by
  unfold State.fireFlash
  split
  · exact .refl s
  · rename_i e he
    obtain ⟨hmem, ho, hnow⟩ := dueEntry_some he
    refine Steady.trans (t := ((s.setTriggers (s.triggers.erase e)).pulseFlash u (plus s.now 50)).setUnits
      (s.units.modify u fun f => f.afterFire s.now (s.unitConfig u).recharge)) ⟨id, id, id, fun h => ?_, fun _ => .refl _, fun _ => id⟩
      ((updateEntry_steady ..).trans (testDone_steady ..))
    exact (show s.now = e.fireAt from hnow.symm) ▸ h.fireFlash hmem ho _

end Sys2Proof.Machine
end

section
/-! PROOFS. Passages, heads and records (chapters 2 to 4): what their changes keep. A speed sample that pairs within the pairing limit lies at
500 mm/s or more, and a number that no record holds is found within 17 steps. -/

namespace Sys2Proof.Machine

/-! ### The fields of a passage (R21 to R38) -/

theorem Passage.Sound.touch {p : Passage} (h : p.Sound) (c : TrackConfig) (stamp : Time) : (p.touch c stamp).Sound := by
  rw [Passage.touch_eq_movedBy, Passage.movedBy_eq]
  exact { h with }

theorem Passage.Sound.flushed {p : Passage} (h : p.Sound) : p.flushed.Sound :=
  { h with rejected := Nat.min_le_right _ _, queue := Nat.zero_le _, reversed := fun hr => ⟨rfl, (h.reversed hr).2⟩ }

theorem Passage.Sound.leadingEdge {p : Passage} (h : p.Sound) (hrun : p.reversed = false) (stamp : Time) : (p.leadingEdge stamp).Sound := by
  unfold Passage.leadingEdge axleLimit
  have hq := h.queue
  split
  · exact { h with
      leading := Nat.min_le_right _ _
      rejected := Nat.min_le_right _ _
      queue := by simp only [List.length_append, List.length_tail, List.length_singleton]; omega
      reversed := fun hr => absurd hr (by simp [hrun]) }
  · exact { h with
      leading := Nat.min_le_right _ _
      queue := by simp only [List.length_append, List.length_singleton]; omega
      reversed := fun hr => absurd hr (by simp [hrun]) }

theorem Passage.Sound.countReversed {p : Passage} (h : p.Sound) (leading : Bool) : (p.countReversed leading).Sound := by
  unfold Passage.countReversed
  split
  · exact { h with leading := Nat.min_le_right _ _ }
  · exact { h with trailing := Nat.min_le_right _ _ }

theorem Passage.Sound.reject {p : Passage} (h : p.Sound) : p.reject.Sound := { h with rejected := Nat.min_le_right _ _ }

theorem Passage.Sound.accept {p : Passage} (h : p.Sound) (hrun : p.reversed = false) {v : Nat} (hv : 500 ≤ v ∧ v ≤ 100000) :
    (p.accept v).Sound :=
  { h with
    accepted := Nat.min_le_right _ _
    estimate := by rintro w ⟨⟩; exact hv
    discord := Nat.zero_le _
    orphan := Nat.zero_le _
    reversed := fun hr => absurd (show p.reversed = true from hr) (by simp [hrun]) }

/-- The quarter-weight mean of two values of the range lies in it (R34). -/
theorem Passage.Sound.sample {p : Passage} (h : p.Sound) (hrun : p.reversed = false) {v : Nat} (hv : 500 ≤ v ∧ v ≤ 100000) :
    (p.sample v).Sound := by
  unfold Passage.sample
  split
  · exact h.accept hrun hv
  · rename_i est hest
    have hrange := h.estimate est hest
    split
    · split
      · exact { h.reject with discord := by show p.discord + 1 ≤ 2; omega }
      · exact h.accept hrun hv
    · exact h.accept hrun (by omega)

/-- A sample whose interval lies within the pairing limit of S_w × 2 000 µs is 500 mm/s at least (R19, R29, R30). -/
theorem sample_ge {spacing : Nat} {d : Int} (hd : 1 ≤ d) (hlimit : d ≤ ((spacing * 2000 : Nat) : Int)) : 500 ≤ spacing * 1000000 / d.toNat := by
  rw [Nat.le_div_iff_mul_le (by omega)]
  omega

theorem Passage.Sound.pair {p : Passage} (h : p.Sound) (hrun : p.reversed = false) (c : TrackConfig) {stamp e : Time}
    (hfresh : signedDiff stamp e ≤ (pairingLimit c : Nat)) : (p.pair c stamp e).Sound := by
  unfold Passage.pair
  dsimp only
  split
  · exact h.reject
  · rename_i hplausible
    push Not at hplausible
    exact h.sample hrun ⟨sample_ge hplausible.1 hfresh, hplausible.2⟩

theorem freshQueue_head {limit : Nat} {stamp e : Time} {queue rest : List Time} (h : freshQueue limit stamp queue = e :: rest) :
    signedDiff stamp e ≤ (limit : Nat) := by
  have hhead := List.head?_dropWhile_not (fun e => decide ((limit : Int) < signedDiff stamp e)) queue
  rw [show queue.dropWhile (fun e => decide ((limit : Int) < signedDiff stamp e)) = e :: rest from h] at hhead
  simpa using hhead

theorem Passage.Sound.trailingEdge {p : Passage} (h : p.Sound) (hrun : p.reversed = false) (c : TrackConfig) (stamp : Time) :
    (p.trailingEdge c stamp).Sound := by
  have hlen : (freshQueue (pairingLimit c) stamp p.queue).length ≤ 8 := (List.dropWhile_sublist _).length_le.trans h.queue
  have hnot : ∀ {q : Prop}, p.reversed = true → q := fun hr => absurd hr (by simp [hrun])
  unfold Passage.trailingEdge
  dsimp only
  split
  · exact { h with
      trailing := Nat.min_le_right _ _
      rejected := Nat.min_le_right _ _
      orphan := Nat.min_le_left _ _
      queue := hlen
      reversed := hnot }
  · rename_i e rest hfresh
    refine Passage.Sound.pair (p := { p with
      trailing := satSucc p.trailing
      rejected := satAdd p.rejected (p.queue.length - (freshQueue (pairingLimit c) stamp p.queue).length), queue := rest })
      ?_ hrun c (freshQueue_head hfresh)
    exact { h with
      trailing := Nat.min_le_right _ _
      rejected := Nat.min_le_right _ _
      queue := by rw [hfresh, List.length_cons] at hlen; show rest.length ≤ 8; omega
      reversed := hnot }

theorem Passage.trailingEdge_completes {p : Passage} {c : TrackConfig} {stamp : Time} (h : p.completesOrphanRun c stamp = true) :
    (p.trailingEdge c stamp).orphan = 3 := by
  simp only [Passage.completesOrphanRun, Bool.and_eq_true, List.isEmpty_iff, decide_eq_true_eq] at h
  simp only [Passage.trailingEdge, h.1]
  omega

theorem Passage.trailingEdge_reversed (p : Passage) (c : TrackConfig) (stamp : Time) : (p.trailingEdge c stamp).reversed = p.reversed := by
  unfold Passage.trailingEdge
  dsimp only
  split
  · rfl
  · unfold Passage.pair Passage.sample
    dsimp only
    split
    · rfl
    · split
      · rfl
      · split
        · split <;> rfl
        · rfl

theorem nextNumber_range (n : Nat) (h : 1 ≤ n) : 1 ≤ nextNumber n ∧ nextNumber n ≤ 65535 := by
  unfold nextNumber
  split <;> omega

/-! ### Open passages -/

theorem TracksSound.mode_of_open {s : State} (h : TracksSound s.passages s.nextPassage s.tracks) {t : Track} {p : Passage}
    (hp : s.passages.get t = some p) : s.mode t ≠ .out := fun hm => by
  simp [h.idle t hm] at hp

/-- A passage of a track in LIVE or TEST may take any sound value. -/
theorem setPassage_keeps (s : State) (t : Track) (q : Passage)
    (h : TracksSound s.passages s.nextPassage s.tracks → s.mode t ≠ .out ∧ q.Sound) : Keeps s (s.setPassages (s.passages.set t (some q))) := by
  refine ⟨id, fun hs => ?_, id, id, fun _ => .refl _⟩
  obtain ⟨hmode, hq⟩ := h hs
  refine { hs with idle := fun k hk => ?_, passages := fun k p hp => ?_ }
  · have hne : t ≠ k := fun e => hmode (e ▸ hk)
    simpa [hne] using hs.idle k hk
  · simp only [setPassages_passages, PerTrack.get_set] at hp
    split at hp
    · cases hp
      exact hq
    · exact hs.passages k p hp

theorem dropPassage_steady (s : State) (t : Track) : Steady s (s.setPassages (s.passages.set t none)) := by
  refine ⟨id, fun hs => ?_, id, id, fun _ => .refl _, fun k hk => ?_⟩
  swap
  · rw [setPassages_passages, PerTrack.get_set, hk, ite_self]
  refine { hs with idle := fun k hk => ?_, passages := fun k p hp => ?_ }
  · rw [setPassages_passages, PerTrack.get_set]
    split
    · rfl
    · exact hs.idle k hk
  · simp only [setPassages_passages, PerTrack.get_set] at hp
    split at hp
    · cases hp
    · exact hs.passages k p hp

/-- A change of an open passage that keeps it sound. -/
theorem changePassage_steady (s : State) {t : Track} {p : Passage} (hp : s.passages.get t = some p) {q : Passage} (hq : p.Sound → q.Sound) :
    Steady s (s.setPassages (s.passages.set t (some q))) := by
  have keeps := setPassage_keeps s t q fun hs => ⟨hs.mode_of_open hp, hq (hs.passages t p hp)⟩
  refine ⟨keeps.memory, keeps.tracks, keeps.table, keeps.lists, keeps.ports, fun k hk => ?_⟩
  have hne : t ≠ k := by
    rintro rfl
    simp [hk] at hp
  rwa [setPassages_passages, PerTrack.get_set_ne _ _ hne]

theorem updatePassage_steady (s : State) (t : Track) {f : Passage → Passage}
    (hf : ∀ p, s.passages.get t = some p → p.Sound → (f p).Sound) : Steady s (s.updatePassage t f) := by
  unfold State.updatePassage PerTrack.modify
  cases hp : s.passages.get t with
  | none => exact dropPassage_steady s t
  | some p => exact changePassage_steady s hp (hf p hp)

/-! ### Closing (R41, R42) -/

theorem closePassage_steady (s : State) (t : Track) (p : Passage) : Steady s (s.closePassage t p) := by
  unfold State.closePassage
  dsimp only
  have h : Steady s (if p.flushed.leading = p.flushed.trailing then s
      else s.raise { kind := .axleMismatch, track := some t, item := .none, time := s.now }) := by
    split
    · exact .refl s
    · exact raise_steady ..
  generalize (if p.flushed.leading = p.flushed.trailing then s
      else s.raise { kind := .axleMismatch, track := some t, item := .none, time := s.now }) = u at h ⊢
  refine (((h.trans (offer_steady ..)).trans (setHeads_steady ..)).trans (dropPassage_steady ..)).trans (mapRecords_steady _ fun _ r _ => ?_)
  split
  · exact .of_eq rfl rfl rfl rfl rfl
  · exact .refl r

theorem testClose_steady (s : State) (t : Track) : Steady s (s.testClose t) := by
  unfold State.testClose
  split
  · exact .refl s
  · split
    · exact closePassage_steady ..
    · exact .refl s

theorem quietExpire_steady (s : State) (t : Track) : Steady s (s.quietExpire t) := by
  unfold State.quietExpire
  split
  · exact .refl s
  · rename_i p hp
    split
    · exact (changePassage_steady s hp (q := { p with quietAt := none, quietElapsed := true }) fun h => { h with }).trans
        (testClose_steady ..)
    · exact .refl s

/-! ### Confirmation (R63 to R67) -/

theorem RecordKeeps.missed (r : HeadRecord) : RecordKeeps r r.missed := ⟨rfl, fun _ => ⟨nofun, fun _ => ⟨rfl, rfl⟩⟩⟩

theorem RecordKeeps.matched (r : HeadRecord) (x : Int) : RecordKeeps r (r.matched x) := ⟨rfl, fun _ => ⟨nofun, fun _ => ⟨rfl, rfl⟩⟩⟩

theorem RecordKeeps.abandoned (r : HeadRecord) : RecordKeeps r r.abandoned := ⟨rfl, fun _ => ⟨nofun, fun _ => ⟨rfl, rfl⟩⟩⟩

theorem leaveWaiting_steady (s : State) (t : Track) (n : Nat) {f : HeadRecord → HeadRecord} (hf : ∀ r, RecordKeeps r (f r)) :
    Steady s (s.leaveWaiting t n f) :=
  ((updateRecord_steady s n fun _ r _ _ => hf r).trans (testDone_steady ..)).trans (testClose_steady ..)

theorem offerFar_steady (s : State) (t : Track) (b : Beam) (x : Time) : Steady s (s.offerFar t b x) := by
  unfold State.offerFar
  split
  · exact leaveWaiting_steady _ _ _ fun r => .matched r _
  · exact raise_steady ..

theorem settleOverdue_steady (s : State) (t : Track) : Steady s (s.settleOverdue t) :=
  foldl_keeps Steady.refl (fun _ _ _ => Steady.trans) (fun s n => leaveWaiting_steady s t n .missed) _ s

theorem confirmationDue_steady (s : State) (n : Nat) : Steady s (s.confirmationDue n) := by
  unfold State.confirmationDue
  split
  · exact .refl s
  · rename_i r hr
    split
    · rename_i hwait
      simp only [Bool.and_eq_true, beq_iff_eq] at hwait
      unfold State.confirmationExpire
      split
      · refine updateRecord_steady s r.number fun ht r' hr' hn => ?_
        obtain rfl := record_unique ht hr hr' (hn.trans (record_number hr))
        exact ⟨rfl, fun h => ⟨h.waiting, fun hne => absurd hwait.2 hne⟩⟩
      · exact leaveWaiting_steady s _ _ .missed
    · exact .refl s

/-! ### Allocation (R81, R82, R84) -/

/-- The numbers from `n` on (R81): up to 65 535, and then from 1. -/
theorem iterate_nextNumber (n j : Nat) (hj : j ≤ 65535) :
    nextNumber^[j] n = if j = 0 then n else if 65535 ≤ n then j else if n + j ≤ 65535 then n + j else n + j - 65535 := by
  induction j with
  | zero => rfl
  | succ j ih =>
    rw [Function.iterate_succ_apply', ih (by omega)]
    unfold nextNumber
    split <;> grind

/-- The first seventeen numbers from `n` on differ. -/
theorem iterate_nextNumber_nodup (n : Nat) : ((List.range 17).map fun j => nextNumber^[j] n).Nodup := by
  refine List.Nodup.map_on (fun i hi j hj h => ?_) List.nodup_range
  rw [List.mem_range] at hi hj
  rw [iterate_nextNumber n i (by omega), iterate_nextNumber n j (by omega)] at h
  grind

/-- The search for a number stops at the first that no record holds, or at the end of its fuel. -/
theorem freeNumber_spec (fuel n : Nat) (records : List HeadRecord) :
    ∃ k ≤ fuel, freeNumber fuel n records = nextNumber^[k] n ∧ (∀ j < k, ∃ r ∈ records, r.number = nextNumber^[j] n) ∧
      (k < fuel → ∀ r ∈ records, r.number ≠ nextNumber^[k] n) := by
  induction fuel generalizing n with
  | zero => exact ⟨0, by simp [freeNumber]⟩
  | succ fuel ih =>
    rw [freeNumber]
    split
    · rename_i hheld
      obtain ⟨k, hk, heq, hbefore, hfree⟩ := ih (nextNumber n)
      refine ⟨k + 1, by omega, heq, fun j hj => ?_, fun hlt => hfree (by omega)⟩
      cases j with
      | zero => simpa using hheld
      | succ j => exact hbefore j (by omega)
    · rename_i hheld
      refine ⟨0, by omega, rfl, by simp, fun _ => ?_⟩
      simpa using hheld

/-- With at most 16 records, the search finds a number that no record holds (R81). -/
theorem freeNumber_free (n : Nat) {records : List HeadRecord} (hlen : records.length ≤ 16) :
    ∃ k, freeNumber (tableSize + 1) n records = nextNumber^[k] n ∧ (∀ j < k, ∃ r ∈ records, r.number = nextNumber^[j] n) ∧
      ∀ r ∈ records, r.number ≠ nextNumber^[k] n := by
  obtain ⟨k, hk, heq, hbefore, hfree⟩ := freeNumber_spec (tableSize + 1) n records
  refine ⟨k, heq, hbefore, hfree (lt_of_le_of_ne hk fun hall => ?_)⟩
  subst hall
  have hsub : ((List.range 17).map fun j => nextNumber^[j] n) ⊆ records.map (·.number) := by
    intro x hx
    obtain ⟨j, hj, rfl⟩ := List.mem_map.mp hx
    obtain ⟨r, hr, hn⟩ := hbefore j (List.mem_range.mp hj)
    exact List.mem_map.mpr ⟨r, hr, hn⟩
  have := ((iterate_nextNumber_nodup n).subperm hsub).length_le
  simp at this
  omega

theorem makeRoom_spec {records room : List HeadRecord} (h : makeRoom records = some room) (hlen : records.length ≤ 16) :
    room.Sublist records ∧ room.length ≤ 15 := by
  unfold makeRoom tableSize at h
  split at h
  · cases h
    exact ⟨.refl _, by omega⟩
  · obtain ⟨old, hold, rfl⟩ := Option.map_eq_some_iff.mp h
    refine ⟨List.erase_sublist, ?_⟩
    rw [List.length_erase_of_mem (List.mem_of_find?_eq_some hold)]
    omega

theorem TableSound.allocate {x : RecordTable} (h : TableSound x) {room : List HeadRecord} (hroom : makeRoom x.records = some room)
    (t : Track) (p : Passage) (test : Bool) (tLead : Time) :
    let n := freeNumber (tableSize + 1) x.next room
    TableSound { records := room ++ [newRecord n t p test tLead], next := nextNumber n } := by
  intro n
  obtain ⟨hsub, hlen⟩ := makeRoom_spec hroom h.size
  obtain ⟨k, hk, -, hfree⟩ := freeNumber_free x.next (hlen.trans (by omega))
  have hn : 1 ≤ n ∧ n ≤ 65535 := by
    show 1 ≤ freeNumber (tableSize + 1) x.next room ∧ freeNumber (tableSize + 1) x.next room ≤ 65535
    rw [hk]
    clear hk hfree
    induction k with
    | zero => exact h.next
    | succ k ih =>
      rw [Function.iterate_succ_apply']
      exact nextNumber_range _ ih.1
  constructor
  case size => simp only [List.length_append, List.length_singleton]; omega
  case distinct =>
    rw [List.map_append, List.map_singleton, List.nodup_append]
    refine ⟨h.distinct.sublist (hsub.map _), List.nodup_singleton _, fun a ha b hb => ?_⟩
    obtain ⟨r, hr, rfl⟩ := List.mem_map.mp ha
    rw [List.mem_singleton.mp hb, show (newRecord n t p test tLead).number = nextNumber^[k] x.next from hk]
    exact hfree r hr
  case numbers =>
    intro r hr
    rcases List.mem_append.mp hr with hr | hr
    · exact h.numbers r (hsub.subset hr)
    · rw [List.mem_singleton.mp hr]
      exact hn
  case next => exact nextNumber_range n hn.1
  case records =>
    intro r hr
    rcases List.mem_append.mp hr with hr | hr
    · exact h.records r (hsub.subset hr)
    · rw [List.mem_singleton.mp hr]
      exact ⟨nofun, fun _ => ⟨rfl, rfl⟩⟩

theorem allocate_steady {s u : State} {t : Track} {p : Passage} {x : Time} {n : Nat} (h : s.allocate t p x = some (n, u)) : Steady s u := by
  unfold State.allocate at h
  obtain ⟨room, hroom, hr⟩ := Option.map_eq_some_iff.mp h
  obtain ⟨rfl, rfl⟩ := Prod.mk.inj hr
  exact ⟨id, id, fun ht => ht.allocate hroom t p _ x, id, fun _ => .refl _, fun _ => id⟩

end Sys2Proof.Machine
end

section
/-! PROOFS. Planning, heads, edges and conditioners (chapters 1, 3 and 5): each keeps every block sound. -/

namespace Sys2Proof.Machine

/-! ### Planning a closed head (R91 to R103) -/

/-- A station that planning leaves PENDING has room for its entries in the list, and every unit it books is free (R100, R101). -/
theorem decideStation_pending_room {s : State} {t : Track} {snap : TrackSnapshot} {dir : Direction} {v : Nat} {mid : Time} {st : Station}
    {c : StationConfig} (h : (s.decideStation t snap dir v mid st c).camera = .pending) :
    s.triggers.length + 1 + (bookedUnits c (s.decideStation t snap dir v mid st c)).length ≤ 32 ∧
      ∀ u ∈ bookedUnits c (s.decideStation t snap dir v mid st c), s.inhibit.asserted = false ∧ (s.units.get u).bookings.length < 4 := by
  unfold State.decideStation at h ⊢
  dsimp only at h ⊢
  split at h
  · cases h
  split at h
  · cases h
  split at h
  · cases h
  split at h
  · cases h
  split at h
  · cases h
  split at h
  · cases h
  split at h
  · cases h
  rename_i henabled hattended hnear hlate hbusy hconflict hroom
  rw [if_neg henabled, if_neg hattended, if_neg hnear, if_neg hlate, if_neg hbusy, if_neg hconflict, if_neg hroom]
  unfold bookedUnits entriesNeeded triggerLimit at *
  dsimp only
  split
  · rename_i hbooked
    rw [if_pos hbooked] at hroom
    refine ⟨by omega, fun u hu => ?_⟩
    have hfree : (unitsOf c.flashSet).all fun u => s.freeAt u (plus mid (timeToGo (distanceToGo dir snap.config c.x) v)) := by
      unfold State.flashDecision at hbooked
      split at hbooked
      · cases hbooked
      · split at hbooked
        · cases hbooked
        · split at hbooked
          · assumption
          · cases hbooked
    have := freeAt_iff.mp (List.all_eq_true.mp hfree u hu)
    exact ⟨this.2.1, this.2.2.2.2⟩
  · rename_i hbooked
    rw [if_neg hbooked] at hroom
    simp only [List.length_nil, List.not_mem_nil, false_imp_iff, implies_true, and_true]
    omega

theorem applyPlan_steady (s : State) (t : Track) (n : Nat) (st : Station) (c : StationConfig) (p : StationPlan)
    (h : p.camera = .pending → s.triggers.length + 1 + (bookedUnits c p).length ≤ 32 ∧
      ∀ u ∈ bookedUnits c p, s.inhibit.asserted = false ∧ (s.units.get u).bookings.length < 4) : Steady s (s.applyPlan t n st c p) := by
  unfold State.applyPlan
  dsimp only
  have hreserve : Steady s (if p.camera = .pending then s.reserve n st c p else s) := by
    split
    · rename_i hp
      exact reserve_steady (h hp).1 (h hp).2
    · exact .refl s
  generalize (if p.camera = .pending then s.reserve n st c p else s) = u at hreserve ⊢
  have hentry := hreserve.trans (updateRecord_steady u n (f := fun r => { r with entries := r.entries ++ [p.entry st] })
    fun _ _ _ _ => .of_eq rfl rfl rfl rfl rfl)
  split
  · exact hentry.trans (offer_steady ..)
  · split
    · exact hentry.trans (raise_steady ..)
    · exact hentry

theorem planStation_steady (t : Track) (snap : TrackSnapshot) (dir : Direction) (v : Nat) (x : Time) (n : Nat) (s : State) (st : Station) :
    Steady s (State.planStation t snap dir v x n s st) := by
  unfold State.planStation
  split
  · exact .refl s
  · exact applyPlan_steady _ _ _ _ _ _ decideStation_pending_room

/-- The record of a number after it is changed. -/
theorem record_updateRecord (s : State) (n : Nat) {f : HeadRecord → HeadRecord} (hf : ∀ r, (f r).number = r.number) :
    (s.updateRecord n f).record n = (s.record n).map f := by
  unfold State.record State.updateRecord
  simp only [setTable_table, List.find?_map]
  have hsame : ((fun r : HeadRecord => r.number == n) ∘ fun r => if r.number = n then f r else r) = fun r => r.number == n := by
    funext r
    by_cases h : r.number = n <;> simp [h, hf]
  rw [hsame]
  cases h : s.table.records.find? fun r => r.number == n with
  | none => rfl
  | some r => simp [show r.number = n by simpa using List.find?_some h]

theorem recordIs_updateRecord {s : State} {n : Nat} {x : RecordState} (h : s.recordIs n x = true) {f : HeadRecord → HeadRecord}
    (hnumber : ∀ r, (f r).number = r.number) (hstate : ∀ r, (f r).state = r.state) : (s.updateRecord n f).recordIs n x = true := by
  obtain ⟨r, hr, hx⟩ := recordIs_iff.mp h
  exact recordIs_iff.mpr ⟨f r, by rw [record_updateRecord s n hnumber, hr]; rfl, (hstate r).trans hx⟩

/-- A FORMING record may enter any state: it is not WAITING. -/
theorem finishForming_steady {s : State} {n : Nat} (h : s.recordIs n .forming = true) (x : RecordState) : Steady s (s.finishRecord n x) := by
  refine finishRecord_steady s n x fun ht r hr hn hw => ?_
  obtain ⟨o, ho, hs⟩ := recordIs_iff.mp h
  obtain rfl := record_unique ht ho hr hn
  simp [(ht.records r hr).waiting hw] at hs

/-- A FORMING record is planned, or finished by the table of R92. -/
theorem planHead_steady {s : State} {n : Nat} (h : s.recordIs n .forming = true) (t : Track) (a b : Time) : Steady s (s.planHead t n a b) := by
  unfold State.planHead
  dsimp only
  split
  · refine Steady.trans (Steady.trans ?_ (foldl_keeps Steady.refl (fun _ _ _ => Steady.trans)
      (fun s st => planStation_steady _ _ _ _ _ _ s st) _ _)) (confirmationDue_steady ..)
    exact updateRecord_steady s n fun _ r _ _ => ⟨rfl, fun _ => ⟨fun _ => rfl, fun hne => absurd rfl hne⟩⟩
  · refine Steady.trans ?_ (finishForming_steady ?_ _)
    · exact updateRecord_steady s n fun _ _ _ _ => .of_eq rfl rfl rfl rfl rfl
    · exact recordIs_updateRecord h (fun _ => rfl) fun _ => rfl

/-! ### Heads (R51 to R60) -/

theorem setHead_steady (s : State) (t : Track) (b : Beam) (h : HeadUnit) : Steady s (s.setHead t b h) := setHeads_steady ..

theorem blockRecord_steady (s : State) (n : Nat) : Steady s (s.blockRecord n) := by
  unfold State.blockRecord
  split
  · exact finishForming_steady ‹_› _
  · exact .refl s

theorem enterBlocked_steady (s : State) (t : Track) (b : Beam) (h : Head) : Steady s (s.enterBlocked t b h) := by
  unfold State.enterBlocked
  dsimp only
  refine Steady.trans (Steady.trans (t := (s.setHeadState t b .blocked).raise
    { kind := .headBlocked, track := some t, item := .input (.beam b), time := (s.setHeadState t b .blocked).now })
    ((setHead_steady ..).trans (raise_steady ..)) ?_) (testClose_steady ..)
  split
  · split
    · exact .refl _
    · exact blockRecord_steady ..
  · exact settleOverdue_steady ..
  · exact .refl _

theorem wMaxExpire_steady (s : State) (t : Track) (b : Beam) : Steady s (s.wMaxExpire t b) := by
  unfold State.wMaxExpire
  split
  · split
    · exact enterBlocked_steady ..
    · exact .refl s
  · split
    · exact setHead_steady ..
    · exact .refl s
  · exact .refl s

theorem restoreBeam_steady (s : State) (t : Track) (b : Beam) : Steady s (s.restoreBeam t b) := (setHead_steady ..).trans (testClose_steady ..)

theorem handOver_steady (s : State) (t : Track) (h : Head) (x : Time) : Steady s (s.handOver t h x) := by
  unfold State.handOver
  split
  · exact .refl s
  · split
    · rename_i hforming
      refine Steady.trans ?_ (planHead_steady ?_ t _ _)
      · exact updateRecord_steady s _ fun _ _ _ _ => .of_eq rfl rfl rfl rfl rfl
      · exact recordIs_updateRecord hforming (fun _ => rfl) fun _ => rfl
    · exact .refl s

theorem closeHead_steady (s : State) (t : Track) (b : Beam) (h : Head) (x : Time) : Steady s (s.closeHead t b h x) := by
  unfold State.closeHead
  dsimp only
  refine Steady.trans (Steady.trans ?_ (setHead_steady ..)) (testClose_steady ..)
  split
  · exact handOver_steady ..
  · exact (offerFar_steady ..).trans (settleOverdue_steady ..)
  · exact .refl s

theorem windowExpire_steady (s : State) (t : Track) (b : Beam) : Steady s (s.windowExpire t b) := by
  unfold State.windowExpire
  split
  · split
    · exact closeHead_steady ..
    · exact .refl s
  · exact .refl s

theorem recordHead_steady (s : State) (t : Track) (b : Beam) (h : Head) : Steady s (s.recordHead t b h) := by
  unfold State.recordHead
  split
  · exact .refl s
  · have hcount := updatePassage_steady s t (f := fun p => { p with heads := satSucc p.heads })
      fun p _ hp => { hp with heads := Nat.min_le_right _ _ }
    dsimp only
    split
    · rename_i halloc
      exact (hcount.trans (allocate_steady halloc)).trans (setHead_steady ..)
    · exact hcount.trans (raise_steady ..)

theorem beginHead_steady (s : State) (t : Track) (b : Beam) (x : Time) : Steady s (s.beginHead t b x) := by
  unfold State.beginHead
  dsimp only
  refine Steady.trans ?_ (wMaxExpire_steady ..)
  split
  · exact (setHead_steady ..).trans (recordHead_steady ..)
  · exact setHead_steady ..

theorem endStrip_steady (s : State) (t : Track) (b : Beam) (h : Head) (x : Time) : Steady s (s.endStrip t b h x) :=
  (setHead_steady ..).trans (windowExpire_steady ..)

theorem mergeStrip_steady (s : State) (t : Track) (b : Beam) (h : Head) : Steady s (s.mergeStrip t b h) := by
  unfold State.mergeStrip
  split
  · exact enterBlocked_steady ..
  · dsimp only
    split
    · exact setHead_steady ..
    · split
      · refine Steady.trans ?_ (updateRecord_steady _ _ fun _ _ _ _ => .of_eq rfl rfl rfl rfl rfl)
        exact setHead_steady ..
      · exact setHead_steady ..

theorem beamEdge_steady (s : State) (t : Track) (b : Beam) (a : Bool) (x : Time) : Steady s (s.beamEdge t b a x) := by
  unfold State.beamEdge
  split
  · exact beginHead_steady ..
  · exact endStrip_steady ..
  · exact mergeStrip_steady ..
  · exact restoreBeam_steady ..
  · exact .refl s

/-! ### Wheel edges (R23 to R38) -/

theorem abandonRecord_steady (s : State) (n : Nat) : Steady s (s.abandonRecord n) := by
  unfold State.abandonRecord
  refine Steady.trans (Steady.trans (removeEntries_steady ..) (updateRecord_steady _ n fun _ r _ _ => .abandoned r))
    (finishRecord_steady _ n _ fun _ r hr hn => ?_)
  obtain ⟨o, -, rfl⟩ := List.mem_map.mp hr
  by_cases h : o.number = n
  · simp [h, HeadRecord.abandoned]
  · rw [if_neg h] at hn
    exact absurd hn h

/-- A passage whose orphan run stands at 3 becomes REVERSED with its axle queue empty (R36). -/
theorem reverse_steady (s : State) (t : Track) (w : Wheel) (h : ∀ p, s.passages.get t = some p → p.orphan = 3) : Steady s (s.reverse t w) := by
  unfold State.reverse
  dsimp only
  refine Steady.trans (Steady.trans (Steady.trans (t := s.updatePassage t fun p => { p.flushed with reversed := true })
    (updatePassage_steady s t fun p hp hs => { hs.flushed with reversed := fun _ => ⟨rfl, h p hp⟩ }) ?_) (raise_steady ..)) (testClose_steady ..)
  exact foldl_keeps Steady.refl (fun _ _ _ => Steady.trans) (fun s n => abandonRecord_steady s n) _ _

theorem takeWheelEdge_steady (s : State) (t : Track) (w : Wheel) (a : Bool) (x : Time) {p : Passage} (hp : s.passages.get t = some p) :
    Steady s (s.takeWheelEdge t w a x p) := by
  have put : ∀ {q : Passage}, (p.Sound → q.Sound) → Steady s (s.setPassages (s.passages.set t (some q))) := changePassage_steady s hp
  unfold State.takeWheelEdge
  dsimp only
  split
  · exact put fun h => h.touch _ x
  · split
    · exact put fun h => (h.touch _ x).countReversed _
    · rename_i hrun
      have hrun : (p.touch (s.config t) x).reversed = false := by simpa using hrun
      split
      · exact put fun h => (h.touch _ x).leadingEdge hrun x
      · split
        · rename_i hthird
          refine (put fun h => (h.touch _ x).trailingEdge hrun _ x).trans (reverse_steady _ t w fun q hq => ?_)
          simp only [setPassages_passages, PerTrack.get_set_self, Option.some.injEq] at hq
          exact hq ▸ Passage.trailingEdge_completes hthird
        · exact put fun h => (h.touch _ x).trailingEdge hrun _ x

theorem openingPassage_sound {n : Nat} (hn : 1 ≤ n ∧ n ≤ 65535) (w : Wheel) (x : Time) : (openingPassage n w x).Sound where
  number := hn
  leading := Nat.zero_le _
  trailing := Nat.zero_le _
  accepted := Nat.zero_le _
  rejected := Nat.zero_le _
  heads := Nat.zero_le _
  estimate := nofun
  discord := Nat.zero_le _
  orphan := Nat.zero_le _
  queue := Nat.zero_le _
  reversed := nofun

theorem openPassage_keeps (s : State) (t : Track) (w : Wheel) (x : Time) (hmode : s.mode t ≠ .out) : Keeps s (s.openPassage t w x) := by
  have hopen : Keeps s ((s.setPassages (s.passages.set t (some (openingPassage s.nextPassage w x)))).setNextPassage
      (nextNumber s.nextPassage)) :=
    ⟨id, fun h => { (setPassage_keeps s t _ fun h => ⟨hmode, openingPassage_sound h.next w x⟩).tracks h with
      next := nextNumber_range _ h.next.1 }, id, id, fun _ => .refl _⟩
  unfold State.openPassage
  dsimp only
  refine Keeps.trans ((hopen.trans (setHeads_steady ..).keeps).trans (offer_steady ..).keeps)
    (updatePassage_steady _ t fun p hp hs => ?_).keeps
  have hput : (s.passages.set t (some (openingPassage s.nextPassage w x))).get t = some p := hp
  obtain rfl : openingPassage s.nextPassage w x = p := by simpa using hput
  exact { hs.leadingEdge rfl x with }

theorem wheelEdge_keeps (s : State) (t : Track) (w : Wheel) (a : Bool) (x : Time) : Keeps s (s.wheelEdge t w a x) := by
  unfold State.wheelEdge
  split
  · exact .refl s
  · rename_i hmode
    split
    · split
      · exact openPassage_keeps s t w x hmode
      · exact .refl s
    · rename_i p hp
      exact (takeWheelEdge_steady s t w a x hp).keeps

/-- An inactive edge opens no passage (R25). -/
theorem wheelEdge_steady (s : State) (t : Track) (w : Wheel) (x : Time) : Steady s (s.wheelEdge t w false x) := by
  unfold State.wheelEdge
  split
  · exact .refl s
  · split
    · exact .refl s
    · rename_i p hp
      exact takeWheelEdge_steady s t w false x hp

theorem handEdge_keeps (s : State) (t : Track) (i : Input) (a : Bool) (x : Time) : Keeps s (s.handEdge t i a x) := by
  unfold State.handEdge
  split
  · exact wheelEdge_keeps ..
  · exact (beamEdge_steady ..).keeps

theorem handEdge_steady (s : State) (t : Track) (i : Input) (x : Time) : Steady s (s.handEdge t i false x) := by
  unfold State.handEdge
  split
  · exact wheelEdge_steady ..
  · exact beamEdge_steady ..

theorem emitPinEdge_keeps (s : State) (t : Track) (i : Input) (a : Bool) (x : Time) : Keeps s (s.emitPinEdge t i a x) := by
  unfold State.emitPinEdge
  split
  · exact .refl s
  · exact handEdge_keeps ..

end Sys2Proof.Machine
end

section
/-! PROOFS. Conditioners, injected edges and changes of mode (chapters 1 and 7): each keeps every block sound, and the flash unit snapshot is
in force exactly while a track is LIVE or TEST. -/

namespace Sys2Proof.Machine

/-! ### Conditioners (R7 to R17) -/

theorem setConditioner_steady (s : State) (t : Track) (i : Input) (c : Conditioner) : Steady s (s.setConditioner t i c) := setInputs_steady ..

theorem raiseStuck_steady (s : State) (t : Track) (w : Wheel) : Steady s (s.raiseStuck t w) := raise_steady ..

theorem acceptFilter_keeps (s : State) (t : Track) (i : Input) (a : Bool) (x : Time) : Keeps s (s.acceptFilter t i a x) := by
  unfold State.acceptFilter
  dsimp only
  split
  · exact (setConditioner_steady ..).keeps
  · exact (setConditioner_steady ..).keeps.trans (emitPinEdge_keeps ..)

theorem startFilter_keeps (s : State) (t : Track) (i : Input) (a : Bool) : Keeps s (s.startFilter t i a) := by
  unfold State.startFilter
  dsimp only
  split
  · exact acceptFilter_keeps ..
  · exact (setConditioner_steady ..).keeps

theorem takeSample_keeps (s : State) (t : Track) (i : Input) (high : Bool) : Keeps s (s.takeSample t i high) := by
  unfold State.takeSample
  dsimp only
  split
  · exact .refl s
  · split
    · split
      · exact ((setConditioner_steady ..).trans (setConditioner_steady ..)).keeps
      · exact (setConditioner_steady ..).keeps
    · split
      · exact (setConditioner_steady ..).keeps
      · exact (setConditioner_steady ..).keeps.trans (startFilter_keeps ..)

theorem rawChange_keeps (s : State) (t : Track) (i : Input) (high : Bool) : Keeps s (s.rawChange t i high) := by
  unfold State.rawChange
  split
  · exact takeSample_keeps ..
  · exact (setConditioner_steady ..).keeps

theorem firstSample_keeps (s : State) (t : Track) (i : Input) : Keeps s (s.firstSample t i) := by
  unfold State.firstSample
  split
  · exact startFilter_keeps ..
  · exact .refl s

theorem filterExpire_keeps (s : State) (t : Track) (i : Input) : Keeps s (s.filterExpire t i) := by
  unfold State.filterExpire
  dsimp only
  split
  · exact .refl s
  · split
    · split
      · exact (setConditioner_steady ..).keeps.trans (acceptFilter_keeps ..)
      · exact ((setConditioner_steady ..).trans (setConditioner_steady ..)).keeps
    · exact .refl s

theorem stuckExpire_keeps (s : State) (t : Track) (w : Wheel) : Keeps s (s.stuckExpire t w) := by
  unfold State.stuckExpire
  dsimp only
  split
  · split
    · exact ((setConditioner_steady ..).trans (raiseStuck_steady ..)).keeps
    · exact (setConditioner_steady ..).keeps
  · exact .refl s

theorem injectionStuckExpire_keeps (s : State) (t : Track) (w : Wheel) : Keeps s (s.injectionStuckExpire t w) := by
  unfold State.injectionStuckExpire
  dsimp only
  split
  · split
    · exact ((setConditioner_steady ..).trans (raiseStuck_steady ..)).keeps
    · exact (setConditioner_steady ..).keeps
  · exact .refl s

theorem applyInjected_keeps (s : State) (t : Track) (i : Input) (a : Bool) : Keeps s (s.applyInjected t i a) := by
  unfold State.applyInjected
  dsimp only
  split
  · exact (setConditioner_steady ..).keeps.trans (handEdge_keeps ..)
  · exact (setConditioner_steady ..).keeps.trans (handEdge_keeps ..)
  · exact (setConditioner_steady ..).keeps
  · exact .refl s

theorem changeActiveLevel_keeps (s : State) (t : Track) (i : Input) : Keeps s (s.changeActiveLevel t i) := by
  unfold State.changeActiveLevel
  dsimp only
  have h := (setConditioner_steady s t i
    { s.conditioner t i with filter := none, stuckAt := none, pin := .inactive, sampleTaken := true }).keeps
  generalize s.setConditioner t i { s.conditioner t i with filter := none, stuckAt := none, pin := .inactive, sampleTaken := true } = u
    at h ⊢
  have h' : Keeps s (if (s.conditioner t i).pin = .active then u.emitPinEdge t i false u.now else u) := by
    split
    · exact h.trans (emitPinEdge_keeps ..)
    · exact h
  generalize (if (s.conditioner t i).pin = .active then u.emitPinEdge t i false u.now else u) = v at h' ⊢
  split
  · exact h'.trans (startFilter_keeps ..)
  · exact h'

theorem settleActiveLevel_keeps (s : State) (old : PerInput Bool) (t : Track) (i : Input) : Keeps s (s.settleActiveLevel old t i) := by
  unfold State.settleActiveLevel
  split
  · exact .refl s
  · exact changeActiveLevel_keeps ..

theorem endPinStream_steady (s : State) (t : Track) (i : Input) : Steady s (s.endPinStream t i) := by
  unfold State.endPinStream
  split
  · exact handEdge_steady ..
  · exact .refl s

theorem endInjectedStream_steady (s : State) (t : Track) (i : Input) : Steady s (s.endInjectedStream t i) := by
  unfold State.endInjectedStream
  dsimp only
  refine Steady.trans ?_ (setConditioner_steady ..)
  split
  · exact handEdge_steady ..
  · exact .refl s

theorem startPinStream_keeps (s : State) (t : Track) (i : Input) : Keeps s (s.startPinStream t i) := by
  unfold State.startPinStream
  split
  · exact handEdge_keeps ..
  · exact .refl s

/-- Events in an order the manual leaves open, each of which keeps every block. -/
theorem takeAll_of_keeps (acts : List (State → State)) (h : ∀ a ∈ acts, ∀ s, Keeps s (a s)) (s : State) : Keeps s (s.takeAll acts) :=
  takeAll_keeps Keeps.refl (fun _ _ _ => Keeps.trans) (fun s n => (setChoices_steady s n).keeps) acts h s

theorem takeAll_of_steady (acts : List (State → State)) (h : ∀ a ∈ acts, ∀ s, Steady s (a s)) (s : State) : Steady s (s.takeAll acts) :=
  takeAll_keeps Steady.refl (fun _ _ _ => Steady.trans) setChoices_steady acts h s

theorem endPinStreams_steady (s : State) (t : Track) : Steady s (s.takeAll (Input.all.map fun i s => s.endPinStream t i)) :=
  takeAll_of_steady _ (fun a ha s => by
    obtain ⟨i, -, rfl⟩ := List.mem_map.mp ha
    exact endPinStream_steady ..) s

theorem endInjectedStreams_steady (s : State) (t : Track) : Steady s (s.takeAll (Input.all.map fun i s => s.endInjectedStream t i)) :=
  takeAll_of_steady _ (fun a ha s => by
    obtain ⟨i, -, rfl⟩ := List.mem_map.mp ha
    exact endInjectedStream_steady ..) s

theorem startPinStreams_keeps {α : Type} (s : State) (t : Track) (l : List α) (f : α → Input) :
    Keeps s (s.takeAll (l.map fun x s => s.startPinStream t (f x))) :=
  takeAll_of_keeps _ (fun a ha s => by
    obtain ⟨x, -, rfl⟩ := List.mem_map.mp ha
    exact startPinStream_keeps ..) s

/-! ### Track controls -/

/-- What TracksInv asks of one track: its control fits the passage it has open. -/
structure TrackControl.Fits (passage : Option Passage) (c : TrackControl) : Prop where
  idle : c.mode = .out → passage = none
  snapshot : c.snapshot.isSome = true ↔ c.mode ≠ .out
  script : c.injections ≠ [] → c.mode = .test
  spacing : ∀ snap, c.snapshot = some snap → snap.config.xW1 + 200 ≤ snap.config.xW2 ∧ snap.config.xW2 ≤ snap.config.xW1 + 4000

theorem TracksSound.fits {passages : PerTrack (Option Passage)} {next : Nat} {tracks : PerTrack TrackControl}
    (h : TracksSound passages next tracks) (t : Track) : (tracks.get t).Fits (passages.get t) :=
  ⟨h.idle t, h.snapshot t, h.script t, h.spacing t⟩

theorem TracksSound.of_fits {passages : PerTrack (Option Passage)} {next : Nat} {tracks : PerTrack TrackControl}
    (hfits : ∀ t, (tracks.get t).Fits (passages.get t)) (hnext : 1 ≤ next ∧ next ≤ 65535)
    (hpassages : ∀ t p, passages.get t = some p → p.Sound) : TracksSound passages next tracks :=
  ⟨fun t => (hfits t).idle, fun t => (hfits t).snapshot, fun t => (hfits t).script, fun t => (hfits t).spacing, hnext, hpassages⟩

/-- An injection queue as ListsInv has it. -/
def ScriptSound (tb : Time) (q : List InjectedEdge) : Prop := q.length ≤ 16 ∧ q.Pairwise fun a b => (a.time - tb).toNat ≤ (b.time - tb).toNat

theorem ScriptSound.nil (tb : Time) : ScriptSound tb [] := ⟨by simp, .nil⟩

theorem ScriptSound.erase {tb : Time} {q : List InjectedEdge} (h : ScriptSound tb q) (e : InjectedEdge) : ScriptSound tb (q.erase e) :=
  ⟨List.length_erase_le.trans h.1, h.2.sublist List.erase_sublist⟩

/-- A change of one track's control that fits its passage, with its injection queue in order. -/
theorem setTracks_steady (s : State) (t : Track) (x : PerTrack TrackControl) (hother : ∀ k, t ≠ k → x.get k = s.tracks.get k)
    (hfits : (s.tracks.get t).Fits (s.passages.get t) → (x.get t).Fits (s.passages.get t))
    (hscript : ScriptSound s.clock.tb (s.tracks.get t).injections → ScriptSound s.clock.tb (x.get t).injections) :
    Steady s (s.setTracks x) := by
  have hscripts : ∀ h : ListsSound s.clock.tb s.triggers s.tracks s.units s.inhibit, ∀ k, ScriptSound s.clock.tb (x.get k).injections := by
    intro h k
    by_cases hk : t = k
    · subst hk
      exact hscript ⟨h.injections t, h.script t⟩
    · rw [hother k hk]
      exact ⟨h.injections k, h.script k⟩
  refine ⟨id, fun h => ?_, id, fun h => { h with injections := fun k => (hscripts h k).1, script := fun k => (hscripts h k).2 },
    fun _ => .refl _, fun _ => id⟩
  refine TracksSound.of_fits (fun k => ?_) h.next h.passages
  by_cases hk : t = k
  · subst hk
    exact hfits (h.fits t)
  · rw [setTracks_tracks, hother k hk]
    exact h.fits k

/-- A change of a track's injection queue within TEST. -/
theorem setInjections_steady (s : State) (t : Track) (q : List InjectedEdge)
    (hmode : (s.tracks.get t).Fits (s.passages.get t) → q ≠ [] → s.mode t = .test)
    (hscript : ScriptSound s.clock.tb (s.tracks.get t).injections → ScriptSound s.clock.tb q) : Steady s (s.setInjections t q) := by
  refine setTracks_steady s t (s.tracks.modify t fun x => { x with injections := q }) (fun k hk => PerTrack.get_modify_ne _ _ hk) (fun h => ?_) ?_
  · rw [PerTrack.get_modify_self]
    exact { h with script := hmode h }
  · rw [PerTrack.get_modify_self]
    exact hscript

theorem clearInjections_steady (s : State) (t : Track) : Steady s (s.setInjections t []) :=
  setInjections_steady s t [] (fun _ h => absurd rfl h) fun _ => .nil _

theorem deliverInjected_keeps (s : State) (t : Track) (i : Input) : Keeps s (s.deliverInjected t i) := by
  unfold State.deliverInjected
  dsimp only
  split
  · exact .refl s
  · rename_i e he
    refine (setInjections_steady s t _ (fun h hne => h.script fun hnil => ?_) fun h => h.erase e).keeps.trans (applyInjected_keeps ..)
    simp [hnil] at he

/-! ### The flash unit snapshot in force (R140) -/

/-- The flash unit snapshot is held exactly while a track is LIVE or TEST. -/
def UnitsTaken (s : State) : Prop := s.unitSnapshot.isSome = true ↔ ∃ t, s.mode t ≠ .out

theorem unitsTaken_congr {s u : State} (hmode : ∀ k, u.mode k = s.mode k) (hunits : u.unitSnapshot = s.unitSnapshot) :
    UnitsTaken s → UnitsTaken u := by
  unfold UnitsTaken
  simp only [hmode, hunits]
  exact id

theorem OnlyDetectors.unitsTaken {s u : State} (h : OnlyDetectors s u) : UnitsTaken s → UnitsTaken u :=
  unitsTaken_congr (fun k => by unfold State.mode; rw [h.tracks]) h.unitSnapshot

/-- The track controls and the flash unit snapshot stay. -/
structure SameControls (s u : State) : Prop where
  tracks : u.tracks = s.tracks
  unitSnapshot : u.unitSnapshot = s.unitSnapshot

theorem OnlyDetectors.controls {s u : State} (h : OnlyDetectors s u) : SameControls s u := ⟨h.tracks, h.unitSnapshot⟩

theorem SameControls.trans {s u v : State} (h : SameControls s u) (k : SameControls u v) : SameControls s v :=
  ⟨k.tracks.trans h.tracks, k.unitSnapshot.trans h.unitSnapshot⟩

theorem SameControls.mode {s u : State} (h : SameControls s u) (t : Track) : u.mode t = s.mode t := by
  unfold State.mode
  rw [h.tracks]

theorem SameControls.unitsTaken {s u : State} (h : SameControls s u) : UnitsTaken s → UnitsTaken u :=
  unitsTaken_congr h.mode h.unitSnapshot

/-- Detector events in an order the manual leaves open leave the track controls. -/
theorem takeAll_controls (acts : List (State → State)) (h : ∀ a ∈ acts, ∀ s, OnlyDetectors s (a s)) (s : State) :
    SameControls s (s.takeAll acts) :=
  takeAll_keeps (R := SameControls) (fun _ => ⟨rfl, rfl⟩) (fun _ _ _ => SameControls.trans) (fun _ _ => ⟨rfl, rfl⟩) acts
    (fun a ha s => (h a ha s).controls) s

theorem endPinStreams_controls (s : State) (t : Track) : SameControls s (s.takeAll (Input.all.map fun i s => s.endPinStream t i)) :=
  takeAll_controls _ (fun a ha s => by
    obtain ⟨i, -, rfl⟩ := List.mem_map.mp ha
    exact endPinStream_only ..) s

theorem endInjectedStreams_controls (s : State) (t : Track) :
    SameControls s (s.takeAll (Input.all.map fun i s => s.endInjectedStream t i)) :=
  takeAll_controls _ (fun a ha s => by
    obtain ⟨i, -, rfl⟩ := List.mem_map.mp ha
    exact endInjectedStream_only ..) s

theorem startPinStreams_controls {α : Type} (s : State) (t : Track) (l : List α) (f : α → Input) :
    SameControls s (s.takeAll (l.map fun x s => s.startPinStream t (f x))) :=
  takeAll_controls _ (fun a ha s => by
    obtain ⟨x, -, rfl⟩ := List.mem_map.mp ha
    exact startPinStream_only ..) s

theorem settleActiveLevels_controls (s : State) (old : PerInput Bool) (t : Track) :
    SameControls s (s.takeAll (Input.all.map fun i s => s.settleActiveLevel old t i)) :=
  takeAll_controls _ (fun a ha s => by
    obtain ⟨i, -, rfl⟩ := List.mem_map.mp ha
    exact settleActiveLevel_only ..) s

/-- In OUT reached from TEST, pin streams start and active levels settle. -/
theorem outStreams_controls (s : State) (old : PerInput Bool) (t : Track) : SameControls s
    (s.takeAll (Input.all.flatMap fun i => [fun s => s.startPinStream t i, fun s => s.settleActiveLevel old t i])) :=
  takeAll_controls _ (fun a ha s => by
    obtain ⟨i, -, hi⟩ := List.mem_flatMap.mp ha
    simp only [List.mem_cons, List.not_mem_nil, or_false] at hi
    rcases hi with rfl | rfl
    · exact startPinStream_only ..
    · exact settleActiveLevel_only ..) s

/-! ### Changes of mode (R138) -/

theorem Track.eq_or_other (t k : Track) : k = t ∨ k = t.other := by cases t <;> cases k <;> simp [Track.other]

theorem mode_setMode (s : State) (t : Track) (m : Mode) (k : Track) : (s.setMode t m).mode k = if t = k then m else s.mode k := by
  unfold State.mode State.setMode
  rw [setTracks_tracks, PerTrack.get_modify]
  split <;> rfl

/-- A snapshot that passes validation has a wheel spacing in the range (R141, check 3). -/
theorem wheelSpacing_of_valid {s : State} {t : Track} (h : s.validate t = none) :
    (takeSnapshot s.image t).config.xW1 + 200 ≤ (takeSnapshot s.image t).config.xW2 ∧
      (takeSnapshot s.image t).config.xW2 ≤ (takeSnapshot s.image t).config.xW1 + 4000 := by
  have hall := List.find?_eq_none.mp h
  have hspacing := hall { code := 3, item := 0xFF, holds := wheelSpacingHolds (takeSnapshot s.image t).config } (by simp [checks])
  simp only [wheelSpacingHolds, Bool.not_eq_true, Bool.not_eq_false', Bool.and_eq_true, decide_eq_true_eq] at hspacing
  omega

theorem leaveOut_adopts (s : State) {t : Track} {m : Mode} (hm : m ≠ .out) (hout : s.mode t = .out) (hvalid : s.validate t = none) :
    Steady s ((s.adopt t).setMode t m) := by
  refine (setTracks_steady s t ((s.adopt t).tracks.modify t fun x => { x with mode := m }) (fun k hk => ?_) (fun h => ?_) ?_).trans
    (setUnitSnapshot_steady _ (some (s.unitsFor t)))
  · exact (PerTrack.get_modify_ne _ _ hk).trans (PerTrack.get_modify_ne _ _ hk)
  · refine ⟨fun hm' => absurd ?_ hm, ?_, fun hne => ?_, fun snap hsnap => ?_⟩
    · simpa [State.adopt] using hm'
    · simpa [State.adopt] using hm
    · have htest := h.script (by simpa [State.adopt] using hne)
      exact absurd (hout.symm.trans htest) (by decide)
    · simp only [State.adopt, setUnitSnapshot_tracks, setTracks_tracks, PerTrack.get_modify_self, Option.some.injEq] at hsnap
      exact hsnap ▸ wheelSpacing_of_valid hvalid
  · simp [State.adopt]

theorem leaveOut_keeps (s : State) {t : Track} {m : Mode} (hm : m ≠ .out) (hout : s.mode t = .out) (hvalid : s.validate t = none) :
    Keeps s (s.leaveOut t m) := by
  unfold State.leaveOut
  dsimp only
  split
  · exact ((leaveOut_adopts s hm hout hvalid).trans (endPinStreams_steady ..)).keeps
  · exact (leaveOut_adopts s hm hout hvalid).keeps

theorem leaveOut_unitsTaken (s : State) {t : Track} {m : Mode} (hm : m ≠ .out) : UnitsTaken (s.leaveOut t m) := by
  have h : UnitsTaken ((s.adopt t).setMode t m) := ⟨fun _ => ⟨t, by simpa [mode_setMode] using hm⟩, fun _ => rfl⟩
  unfold State.leaveOut
  dsimp only
  split
  · exact (endPinStreams_controls ..).unitsTaken h
  · exact h

/-- A change between LIVE and TEST, once its injection queue fits. -/
theorem setMode_steady (s : State) {t : Track} {m : Mode} (hm : m ≠ .out) (hin : s.mode t ≠ .out)
    (hscript : (s.tracks.get t).injections ≠ [] → m = .test) : Steady s (s.setMode t m) := by
  refine setTracks_steady s t (s.tracks.modify t fun x => { x with mode := m }) (fun k hk => PerTrack.get_modify_ne _ _ hk) (fun h => ?_) ?_
  · rw [PerTrack.get_modify_self]
    exact ⟨fun hm' => absurd hm' hm, ⟨fun _ => hm, fun _ => h.snapshot.mpr hin⟩, hscript, h.spacing⟩
  · rw [PerTrack.get_modify_self]
    exact id

theorem setMode_unitsTaken {s : State} {t : Track} {m : Mode} (hm : m ≠ .out) (hin : s.mode t ≠ .out) (h : UnitsTaken s) :
    UnitsTaken (s.setMode t m) :=
  ⟨fun _ => ⟨t, by simpa [mode_setMode] using hm⟩, fun _ => h.mpr ⟨t, hin⟩⟩

theorem liveToTest_keeps (s : State) {t : Track} (hin : s.mode t ≠ .out) : Keeps s (s.liveToTest t) :=
  ((setMode_steady s (by decide) hin fun _ => rfl).trans (endPinStreams_steady ..)).keeps

theorem liveToTest_unitsTaken {s : State} {t : Track} (hin : s.mode t ≠ .out) (h : UnitsTaken s) : UnitsTaken (s.liveToTest t) :=
  (endPinStreams_controls ..).unitsTaken (setMode_unitsTaken (by decide) hin h)

theorem mode_setInjections (s : State) (t : Track) (q : List InjectedEdge) (k : Track) : (s.setInjections t q).mode k = s.mode k := by
  unfold State.mode State.setInjections
  rw [setTracks_tracks, PerTrack.get_modify]
  split <;> rfl

theorem setInjections_unitsTaken (s : State) (t : Track) (q : List InjectedEdge) : UnitsTaken s → UnitsTaken (s.setInjections t q) :=
  unitsTaken_congr (mode_setInjections s t q) rfl

theorem testToLive_keeps (s : State) {t : Track} (hin : s.mode t ≠ .out) : Keeps s (s.testToLive t) := by
  unfold State.testToLive
  dsimp only
  refine Keeps.trans (Keeps.trans (Steady.keeps (((clearInjections_steady s t).trans (setMode_steady _ (by decide) ?_ fun hne => ?_)).trans
    (endInjectedStreams_steady _ t))) (startPinStreams_keeps _ t Beam.all .beam)) (startPinStreams_keeps _ t Wheel.all .wheel)
  · rwa [mode_setInjections]
  · simp [State.setInjections] at hne

theorem testToLive_unitsTaken {s : State} {t : Track} (hin : s.mode t ≠ .out) (h : UnitsTaken s) : UnitsTaken (s.testToLive t) := by
  have hmode : UnitsTaken ((s.setInjections t []).setMode t .live) :=
    setMode_unitsTaken (by decide) (by rwa [mode_setInjections]) (setInjections_unitsTaken s t [] h)
  exact (startPinStreams_controls _ t Wheel.all .wheel).unitsTaken
    ((startPinStreams_controls _ t Beam.all .beam).unitsTaken ((endInjectedStreams_controls ..).unitsTaken hmode))

/-- A track without a passage and without injected edges goes OUT and gives up its snapshot. -/
theorem goOut_steady (s : State) {t : Track} (hidle : s.passages.get t = none) (hscript : (s.tracks.get t).Fits (s.passages.get t) →
    (s.tracks.get t).injections = []) : Steady s ((s.dropSnapshot t).setMode t .out) := by
  refine setTracks_steady s t ((s.dropSnapshot t).tracks.modify t fun x => { x with mode := .out }) (fun k hk => ?_) (fun h => ?_) ?_
  · exact (PerTrack.get_modify_ne _ _ hk).trans (PerTrack.get_modify_ne _ _ hk)
  · refine ⟨fun _ => hidle, ?_, fun hne => absurd (hscript h) ?_, ?_⟩
    · simp [State.dropSnapshot]
    · simpa [State.dropSnapshot] using hne
    · simp [State.dropSnapshot]
  · simp [State.dropSnapshot]

theorem dropUnits_steady (s : State) (t : Track) : Steady s (s.dropUnits t) := by
  unfold State.dropUnits
  split
  · exact setUnitSnapshot_steady ..
  · exact .refl s

/-- A track that has gone OUT takes the flash unit snapshot with it if the other track is OUT too. -/
theorem dropUnits_unitsTaken {s : State} {t : Track} (hout : s.mode t = .out) (hunits : s.unitSnapshot.isSome = true) :
    UnitsTaken (s.dropUnits t) := by
  unfold State.dropUnits
  split
  · rename_i hother
    refine ⟨nofun, fun ⟨k, hk⟩ => absurd ?_ hk⟩
    rcases Track.eq_or_other t k with rfl | rfl
    · exact hout
    · exact hother
  · exact ⟨fun _ => ⟨t.other, ‹_›⟩, fun _ => hunits⟩

theorem removeTrackEntries_steady (s : State) (t : Track) : Steady s (s.removeTrackEntries t) := removeEntries_steady ..

theorem removeTrackEntries_detectors (s : State) (t : Track) : OnlyDetectors s (s.removeTrackEntries t) := (removeEntries_only ..).edges.detectors

theorem liveToOut_keeps (s : State) {t : Track} (hlive : s.mode t = .live) (hidle : s.passages.get t = none) : Keeps s (s.liveToOut t) := by
  have hremove := removeTrackEntries_steady s t
  have htracks := (removeTrackEntries_detectors s t).tracks
  unfold State.liveToOut
  dsimp only
  refine Keeps.trans (Keeps.trans (hremove.trans (goOut_steady _ (hremove.closed t hidle) fun h => ?_)).keeps
    (takeAll_of_keeps _ (fun a ha s => ?_) _)) (dropUnits_steady ..).keeps
  · by_contra hne
    have htest := h.script hne
    rw [htracks] at htest
    exact absurd (hlive.symm.trans htest) (by decide)
  · obtain ⟨i, -, rfl⟩ := List.mem_map.mp ha
    exact settleActiveLevel_keeps ..

theorem liveToOut_unitsTaken {s : State} {t : Track} (hin : s.mode t ≠ .out) (h : UnitsTaken s) : UnitsTaken (s.liveToOut t) := by
  have hsettle := settleActiveLevels_controls (((s.removeTrackEntries t).dropSnapshot t).setMode t .out) (s.config t).activeHigh t
  refine dropUnits_unitsTaken ?_ ?_
  · rw [hsettle.mode, mode_setMode, if_pos rfl]
  · rw [hsettle.unitSnapshot]
    exact (congrArg Option.isSome (removeTrackEntries_detectors s t).unitSnapshot).trans (h.mpr ⟨t, hin⟩)

theorem testToOut_keeps (s : State) {t : Track} (hidle : s.passages.get t = none) : Keeps s (s.testToOut t) := by
  have hend := (clearInjections_steady s t).trans (endInjectedStreams_steady (s.setInjections t []) t)
  have htracks := (endInjectedStreams_controls (s.setInjections t []) t).tracks
  unfold State.testToOut
  dsimp only
  generalize (s.setInjections t []).takeAll (Input.all.map fun i s => s.endInjectedStream t i) = u at hend htracks ⊢
  have hremove := hend.trans (removeTrackEntries_steady u t)
  refine Keeps.trans (Keeps.trans (hremove.trans (goOut_steady _ (hremove.closed t hidle) fun _ => ?_)).keeps
    (takeAll_of_keeps _ (fun a ha s => ?_) _)) (dropUnits_steady ..).keeps
  · rw [(removeTrackEntries_detectors u t).tracks, htracks]
    simp [State.setInjections]
  · obtain ⟨i, -, hi⟩ := List.mem_flatMap.mp ha
    simp only [List.mem_cons, List.not_mem_nil, or_false] at hi
    rcases hi with rfl | rfl
    · exact startPinStream_keeps ..
    · exact settleActiveLevel_keeps ..

theorem testToOut_unitsTaken {s : State} {t : Track} (hin : s.mode t ≠ .out) (h : UnitsTaken s) : UnitsTaken (s.testToOut t) := by
  have hend := endInjectedStreams_controls (s.setInjections t []) t
  unfold State.testToOut
  dsimp only
  generalize (s.setInjections t []).takeAll (Input.all.map fun i s => s.endInjectedStream t i) = u at hend ⊢
  have hout := outStreams_controls (((u.removeTrackEntries t).dropSnapshot t).setMode t .out) (s.config t).activeHigh t
  refine dropUnits_unitsTaken ?_ ?_
  · rw [hout.mode, mode_setMode, if_pos rfl]
  · rw [hout.unitSnapshot]
    refine (congrArg Option.isSome ((removeTrackEntries_detectors u t).unitSnapshot.trans hend.unitSnapshot)).trans ?_
    exact h.mpr ⟨t, hin⟩

/-- An accepted change of mode keeps every block: from OUT after validation, else without an open passage (R137). -/
theorem changeMode_keeps (s : State) {t : Track} {m : Mode} (hm : m ≠ s.mode t) (hvalid : s.mode t = .out → s.validate t = none)
    (hidle : s.mode t ≠ .out → s.passages.get t = none) : Keeps s (s.changeMode t m) := by
  unfold State.changeMode
  split
  · rename_i hout
    exact leaveOut_keeps s (by decide) hout (hvalid hout)
  · rename_i hout
    exact leaveOut_keeps s (by decide) hout (hvalid hout)
  · rename_i hlive
    exact liveToTest_keeps s (by simp [hlive])
  · rename_i htest
    exact testToLive_keeps s (by simp [htest])
  · rename_i hlive
    exact liveToOut_keeps s hlive (hidle (by simp [hlive]))
  · rename_i htest
    exact testToOut_keeps s (hidle (by simp [htest]))
  · exact .refl s

theorem changeMode_unitsTaken (s : State) (t : Track) (m : Mode) (h : UnitsTaken s) : UnitsTaken (s.changeMode t m) := by
  unfold State.changeMode
  split
  · exact leaveOut_unitsTaken s (by decide)
  · exact leaveOut_unitsTaken s (by decide)
  · rename_i hlive
    exact liveToTest_unitsTaken (by simp [hlive]) h
  · rename_i htest
    exact testToLive_unitsTaken (by simp [htest]) h
  · rename_i hlive
    exact liveToOut_unitsTaken (by simp [hlive]) h
  · rename_i htest
    exact testToOut_unitsTaken (by simp [htest]) h
  · exact h

theorem startLive_keeps (s : State) (t : Track) : Keeps s (s.startLive t) := by
  unfold State.startLive
  split
  · rename_i h
    exact leaveOut_keeps s (by decide) h.1 (by simpa using h.2)
  · exact .refl s

theorem startLive_unitsTaken (s : State) (t : Track) (h : UnitsTaken s) : UnitsTaken (s.startLive t) := by
  unfold State.startLive
  split
  · exact leaveOut_unitsTaken s (by decide)
  · exact h

end Sys2Proof.Machine
end

section
/-! PROOFS. Requests, accesses to a port, the maintenance line and the flash inhibit (chapters 5, 8, 9 and 10): each keeps every block
sound. -/

namespace Sys2Proof.Machine

/-! ### Requests -/

/-- A change that keeps every block, and the flash unit snapshot in force exactly while a track is LIVE or TEST. -/
structure Serves (s t : State) : Prop extends Keeps s t where
  units : UnitsTaken s → UnitsTaken t

theorem Serves.refl (s : State) : Serves s s := ⟨.refl s, id⟩

theorem Serves.trans {s t u : State} (h : Serves s t) (k : Serves t u) : Serves s u := ⟨h.toKeeps.trans k.toKeeps, k.units ∘ h.units⟩

theorem Keeps.serves {s t : State} (h : Keeps s t) (k : OnlyDetectors s t) : Serves s t := ⟨h, k.unitsTaken⟩

theorem Steady.serves {s t : State} (h : Steady s t) (k : OnlyDetectors s t) : Serves s t := h.keeps.serves k

theorem updatePort_serves (s : State) (p : PortId) {f : Port → Port} (h : PortKeeps (s.ports.get p) (f (s.ports.get p))) :
    Serves s (s.updatePort p f) := (updatePort_steady s p h).serves (updatePort_only ..).edges.detectors

theorem subscribe_serves (s : State) (p : PortId) (a b : Byte) : Serves s (s.subscribe p a b).state := by
  unfold State.subscribe
  split
  · exact updatePort_serves s p (.registers ..)
  · exact .refl s

theorem setBindings_serves (s : State) (x : PerStation (Option PortId)) : Serves s (s.setBindings x) :=
  ⟨(setBindings_steady s x).keeps, unitsTaken_congr (fun _ => rfl) rfl⟩

theorem removeEntries_serves (s : State) (sel : Entry → Bool) (lost : Option PortId) (d : Bool) : Serves s (s.removeEntries sel lost d) :=
  (removeEntries_steady ..).serves (removeEntries_only ..).edges.detectors

theorem bindStation_serves (s : State) (p : PortId) (station : Byte) : Serves s (s.bindStation p station).state := by
  unfold State.bindStation
  split
  · exact .refl s
  · split
    · exact setBindings_serves ..
    · split <;> exact .refl s

theorem loseBinding_serves (s : State) (p : PortId) (st : Station) : Serves s (s.loseBinding p st) :=
  (setBindings_serves ..).trans (removeEntries_serves ..)

theorem unbindStation_serves (s : State) (p : PortId) (station : Byte) : Serves s (s.unbindStation p station).state := by
  unfold State.unbindStation
  split
  · exact .refl s
  · split
    · exact loseBinding_serves ..
    · exact .refl s

theorem setTrackMode_serves (s : State) (t : Track) (m : Mode) : Serves s (s.setTrackMode t m).state := by
  unfold State.setTrackMode
  split
  · exact .refl s
  · rename_i hm
    split
    · exact .refl s
    · rename_i hbusy
      have hidle : s.mode t ≠ .out → s.passages.get t = none := fun hin => by
        simpa [hin] using hbusy
      split
      · rename_i hout
        split
        · exact .refl s
        · rename_i hvalid
          exact ⟨changeMode_keeps s hm (fun _ => hvalid) hidle, changeMode_unitsTaken s t m⟩
      · rename_i hin
        exact ⟨changeMode_keeps s hm (fun hout => absurd hout hin) hidle, changeMode_unitsTaken s t m⟩

theorem setTrackModeBytes_serves (s : State) (a b : Byte) : Serves s (s.setTrackModeBytes a b).state := by
  unfold State.setTrackModeBytes
  split
  · exact setTrackMode_serves ..
  · exact .refl s

theorem tagPassage_serves (s : State) (a : Byte) (tag : BitVec 32) : Serves s (s.tagPassage a tag).state := by
  unfold State.tagPassage
  split
  · exact .refl s
  · rename_i t ht
    split
    · exact .refl s
    · rename_i p hp
      split
      · exact .refl s
      · refine Steady.serves (Steady.trans (t := s.setPassages (s.passages.set t (some { p with tag := some tag })))
          (changePassage_steady s hp fun h => { h with }) (mapRecords_steady _ fun _ r _ => ?_)) (by repeat' constructor)
        split
        · exact .of_eq rfl rfl rfl rfl rfl
        · exact .refl r

/-- INJECT keeps the queue in the order of its times from now, each edge behind those of the same time (R145). -/
theorem ScriptSound.inject {tb : Time} {q : List InjectedEdge} (h : ScriptSound tb q) {edges : List EdgeArg}
    (hroom : q.length + edges.length ≤ 16) : ScriptSound tb (edges.foldl (fun q e => insertInjected tb (injectedEdge tb e) q) q) := by
  have heq : edges.foldl (fun q e => insertInjected tb (injectedEdge tb e) q) q =
      (edges.map (injectedEdge tb)).foldl (placeBy fun x => (x.time - tb).toNat) q := by
    simp only [List.foldl_map, ← insertInjected_eq]
  rw [heq]
  refine ⟨?_, foldl_placeBy_sorted _ _ h.2⟩
  rw [(foldl_placeBy_perm _ _ _).length_eq]
  simp only [List.length_append, List.length_map]
  omega

theorem inject_serves (s : State) (a : Byte) (edges : List EdgeArg) : Serves s (s.inject a edges).state := by
  unfold State.inject
  split
  · exact .refl s
  · rename_i t ht
    split
    · exact .refl s
    · split
      · exact .refl s
      · rename_i hmode
        dsimp only
        split
        · exact .refl s
        · rename_i hroom
          unfold injectionLimit at hroom
          simp only [State.grant]
          exact ⟨(setInjections_steady s t _ (fun _ _ => by simpa using hmode) fun h => h.inject (by omega)).keeps,
            setInjections_unitsTaken s t _⟩

theorem offer_serves (s : State) (named : PortId → Port → Bool) (n : Notice) : Serves s (s.offer named n) :=
  (offer_steady ..).serves (offer_only ..).edges.detectors

theorem relay_serves (s : State) (p : PortId) (a : Byte) (bytes : List Byte) : Serves s (s.relay p a bytes).state := by
  unfold State.relay
  split
  · exact .refl s
  · dsimp only
    split
    · exact .refl s
    · split
      · exact .refl s
      · simp only [State.grant]
        exact offer_serves ..

theorem releaseFault_serves (s : State) (mask : BitVec 16) : Serves s (s.releaseFault mask).state := by
  unfold State.releaseFault
  split
  · exact (setFaults_steady s _).serves (by repeat' constructor)
  · exact .refl s

theorem perform_serves (s : State) (p : PortId) (k : RequestKind) (body : List Byte) : Serves s (s.perform p k body).state := by
  unfold State.perform
  split
  · exact .refl s
  · exact subscribe_serves ..
  · exact bindStation_serves ..
  · exact unbindStation_serves ..
  · exact setTrackModeBytes_serves ..
  · rw [readTrack_state]; exact .refl s
  · rw [readRecord_state]; exact .refl s
  · rw [latestRecords_state]; exact .refl s
  · exact .refl s
  · exact tagPassage_serves ..
  · exact relay_serves ..
  · exact inject_serves ..
  · exact .refl s
  · exact releaseFault_serves ..
  · exact .refl s
  · exact .refl s

theorem judge_serves (s : State) (p : PortId) (kind length : Byte) (body : List Byte) : Serves s (s.judge p kind length body).state := by
  unfold State.judge
  split
  · exact .refl s
  · split
    · exact perform_serves ..
    · rw [malformed_state]; exact .refl s

/-! ### What a command keeps -/

/-- `t` has the memories, the tracks, the table, the lists and the flash unit snapshot sound that `s` has. -/
structure Blocks (s t : State) : Prop where
  memory : MemorySound s.store s.image s.maint.commit → MemorySound t.store t.image t.maint.commit
  tracks : TracksSound s.passages s.nextPassage s.tracks → TracksSound t.passages t.nextPassage t.tracks
  table : TableSound s.table → TableSound t.table
  lists : ListsSound s.clock.tb s.triggers s.tracks s.units s.inhibit → ListsSound t.clock.tb t.triggers t.tracks t.units t.inhibit
  units : UnitsTaken s → UnitsTaken t

/-- A command keeps every block, and every port sound between events. -/
structure Holds (s t : State) : Prop extends Blocks s t where
  ports : ∀ p, (s.ports.get p).Sound → (t.ports.get p).Sound

theorem Blocks.trans {s t u : State} (h : Blocks s t) (k : Blocks t u) : Blocks s u :=
  ⟨k.memory ∘ h.memory, k.tracks ∘ h.tracks, k.table ∘ h.table, k.lists ∘ h.lists, k.units ∘ h.units⟩

theorem Holds.refl (s : State) : Holds s s := ⟨⟨id, id, id, id, id⟩, fun _ => id⟩

theorem Holds.trans {s t u : State} (h : Holds s t) (k : Holds t u) : Holds s u := ⟨h.toBlocks.trans k.toBlocks, fun p => k.ports p ∘ h.ports p⟩

theorem Serves.blocks {s t : State} (h : Serves s t) : Blocks s t := ⟨h.memory, h.tracks, h.table, h.lists, h.units⟩

theorem Serves.holds {s t : State} (h : Serves s t) : Holds s t := ⟨h.blocks, fun p => (h.ports p).sound⟩

theorem Keeps.holds {s t : State} (h : Keeps s t) (k : OnlyDetectors s t) : Holds s t := (h.serves k).holds

theorem Steady.holds {s t : State} (h : Steady s t) (k : OnlyDetectors s t) : Holds s t := h.keeps.holds k

theorem Steady.holds_of {s t : State} (h : Steady s t) (hunits : UnitsTaken s → UnitsTaken t) : Holds s t := Serves.holds ⟨h.keeps, hunits⟩

theorem whenRunning_holds {f : State → State} {s : State} (h : Holds s (f s)) : Holds s (s.whenRunning f) :=
  whenRunning_keeps Holds.refl fun _ => h

/-! ### Frames (R152 to R155) -/

theorem updatePort_blocks (s : State) (p : PortId) (f : Port → Port) : Blocks s (s.updatePort p f) :=
  ⟨id, id, id, id, unitsTaken_congr (fun _ => rfl) rfl⟩

/-- A change of one port that keeps it sound. -/
theorem updatePort_holds (s : State) (p : PortId) {f : Port → Port} (h : (s.ports.get p).Sound → (f (s.ports.get p)).Sound) :
    Holds s (s.updatePort p f) := by
  refine ⟨updatePort_blocks s p f, fun q => ?_⟩
  by_cases hq : p = q
  · subst hq
    rwa [updatePort_get]
  · rw [updatePort_get_ne _ _ hq]
    exact id

theorem Port.arbitrate_busy {x : Port} {m : Message} (h : x.inProgress = some m) : x.arbitrate = x := by
  unfold Port.arbitrate
  simp only [h]

/-- At a message boundary a reply that waits is loaded. -/
theorem Port.arbitrate_reply {x : Port} {r : Reply} (h : x.inProgress = none) (hr : x.reply = some r) (hwaits : r.inOutput = false) :
    x.arbitrate = { x with
      reply := some { r with inOutput := true }
      inProgress := some { bytes := r.bytes, position := 0, isReply := true }, outReg := r.bytes.head? } := by
  unfold Port.arbitrate
  have hfilter : x.reply.filter (fun r => !r.inOutput) = some r := by simp [hr, Option.filter, hwaits]
  simp only [h, hfilter, Port.load]

/-- At a message boundary without a reply the oldest notice is loaded. -/
theorem Port.arbitrate_notice {x : Port} {n : List Byte} {rest : List (List Byte)} (h : x.inProgress = none) (hr : x.reply = none)
    (hq : x.queue = n :: rest) :
    x.arbitrate = { x with
      queue := rest, inProgress := some { bytes := n, position := 0, isReply := false }, outReg := n.head? } := by
  unfold Port.arbitrate
  simp [h, hr, hq, Port.load]

theorem Port.arbitrate_empty {x : Port} (h : x.inProgress = none) (hr : x.reply = none) (hq : x.queue = []) : x.arbitrate = x := by
  unfold Port.arbitrate
  simp [h, hr, hq]

/-- At a message boundary the reply is loaded and waits no longer; behind a message in progress it waits. -/
theorem Port.finishExecution_reply_idle {x : Port} (h : x.inProgress = none) (reply : List Byte) (deadline : Option Time) :
    x.finishExecution reply deadline = { x with
      reply := some { bytes := reply, inOutput := true }, assembler := x.holder.toList, holder := none, holding := false
      attendance := .attended, attendAt := deadline, executing := false
      inProgress := some { bytes := reply, position := 0, isReply := true }, outReg := reply.head? } := by
  exact Port.arbitrate_reply (r := { bytes := reply, inOutput := false }) h rfl rfl

theorem Port.finishExecution_reply_busy {x : Port} {m : Message} (h : x.inProgress = some m) (reply : List Byte) (deadline : Option Time) :
    x.finishExecution reply deadline = { x with
      reply := some { bytes := reply, inOutput := false }, assembler := x.holder.toList, holder := none, holding := false
      attendance := .attended, attendAt := deadline, executing := false } := by
  exact Port.arbitrate_busy h

/-- The end of an execution leaves a sound port (R155). -/
theorem Port.Performing.finishExecution {x : Port} (h : x.Performing) {reply : List Byte} (hlen : 3 ≤ reply.length) (deadline : Option Time) :
    (x.finishExecution reply deadline).Sound := by
  have hone : ∀ o : Option Byte, o.toList.length ≤ 1 := fun o => by cases o <;> simp
  have hframe : ∀ o : Option Byte, frameComplete o.toList = false := fun o => by cases o <;> rfl
  cases hm : x.inProgress with
  | none =>
    rw [Port.finishExecution_reply_idle hm]
    exact
      { idle := rfl, assembler := (hone _).trans (by decide), queue := h.queue, dropped := h.dropped, held := nofun, frame := hframe _
        boundary := nofun
        output := by rintro m ⟨⟩; exact ⟨by simp [List.head?_eq_getElem?], show 0 < reply.length by omega⟩
        replyOut := ⟨fun _ => ⟨_, rfl, rfl⟩, fun _ => ⟨_, rfl, rfl⟩⟩
        messages := ⟨h.messages, by rintro r ⟨⟩; exact hlen⟩ }
  | some m =>
    rw [Port.finishExecution_reply_busy hm]
    obtain ⟨hout, hpos, hreply⟩ := h.output m hm
    exact
      { idle := rfl, assembler := (hone _).trans (by decide), queue := h.queue, dropped := h.dropped, held := nofun, frame := hframe _
        boundary := fun hnone => by simp [hm] at hnone
        output := fun k hk => by
          obtain rfl : m = k := by simpa [hm] using hk
          exact ⟨hout, hpos⟩
        replyOut := by simp [hm, hreply]
        messages := ⟨h.messages, by rintro r ⟨⟩; exact hlen⟩ }

/-- An execution touches the other ports as the performance does, and keeps the blocks. -/
theorem executeFrame_blocks (s : State) (p : PortId) :
    Blocks s (s.executeFrame p) ∧ ∀ q, q ≠ p → PortKeeps (s.ports.get q) ((s.executeFrame p).ports.get q) := by
  unfold State.executeFrame
  split
  · rename_i kind length body _
    have hjudge := judge_serves (s.updatePort p fun x => { x with executing := true }) p kind length body
    refine ⟨((updatePort_blocks s p _).trans hjudge.blocks).trans (updatePort_blocks ..), fun q hq => ?_⟩
    have hkeeps := hjudge.ports q
    rw [updatePort_get_ne _ _ (Ne.symm hq)] at hkeeps ⊢
    exact hkeeps
  · exact ⟨(Holds.refl s).toBlocks, fun _ _ => .refl _⟩

/-- A complete frame of a port whose reply slot is empty is executed, and leaves its port sound. -/
theorem executeFrame_sound (s : State) (p : PortId) (hframe : frameComplete (s.ports.get p).assembler = true)
    (hperf : ({ s.ports.get p with executing := true } : Port).Performing) : ((s.executeFrame p).ports.get p).Sound := by
  unfold State.executeFrame
  split
  · rename_i kind length body _
    have hstart : ((s.updatePort p fun x => { x with executing := true }).ports.get p).Performing := by rwa [updatePort_get]
    have hjudge := judge_serves (s.updatePort p fun x => { x with executing := true }) p kind length body
    dsimp only
    rw [updatePort_get]
    exact ((hjudge.ports p).performing hstart).finishExecution (by simp [replyBytes]) _
  · rename_i hshort
    rcases hasm : (s.ports.get p).assembler with _ | ⟨a, _ | ⟨b, rest⟩⟩
    · rw [hasm] at hframe
      cases hframe
    · rw [hasm] at hframe
      cases hframe
    · exact absurd hasm (hshort a b rest)

/-- A change of a port followed by the execution of its frame, which is then complete with the reply slot empty. -/
theorem updatePort_executeFrame_holds (s : State) (p : PortId) {f : Port → Port}
    (h : (s.ports.get p).Sound → frameComplete (f (s.ports.get p)).assembler = true ∧
      ({ f (s.ports.get p) with executing := true } : Port).Performing) : Holds s ((s.updatePort p f).executeFrame p) := by
  obtain ⟨hblocks, hothers⟩ := executeFrame_blocks (s.updatePort p f) p
  refine ⟨(updatePort_blocks ..).trans hblocks, fun q => ?_⟩
  by_cases hq : q = p
  · subst hq
    intro hs
    refine executeFrame_sound _ _ ?_ ?_ <;> rw [updatePort_get]
    · exact (h hs).1
    · exact (h hs).2
  · have hkeeps := (hothers q hq).sound
    rwa [updatePort_get_ne _ _ (Ne.symm hq)] at hkeeps

/-- A sound port whose reply slot is empty stands as a performance of its frame finds it. -/
theorem Port.Sound.performing {x : Port} (h : x.Sound) (hreply : x.reply = none) (frame : List Byte) :
    ({ x with assembler := frame, executing := true } : Port).Performing :=
  { executing := rfl, reply := hreply, queue := h.queue, dropped := h.dropped
    boundary := fun hm => (h.boundary hm).2.2
    output := fun m hm => by
      obtain ⟨hout, hpos⟩ := h.output m hm
      refine ⟨hout, hpos, ?_⟩
      by_contra hne
      obtain ⟨r, hr, -⟩ := h.replyOut.mpr ⟨m, hm, by simpa using hne⟩
      simp [hreply] at hr
    messages := h.messages.1 }

/-- An assembler that holds no complete frame has at most 15 bytes. -/
theorem frameComplete_length {l : List Byte} (h : frameComplete l = false) : l.length ≤ 15 := by
  rcases l with _ | ⟨a, _ | ⟨n, body⟩⟩
  · simp
  · simp
  · simp only [frameComplete, Bool.or_eq_false_iff, decide_eq_false_iff_not] at h
    obtain ⟨⟨-, hn⟩, hb⟩ := h
    simp only [List.length_cons]
    omega

theorem assemble_holds (s : State) (p : PortId) (b : Byte) (hheld : (s.ports.get p).holding = false) : Holds s (s.assemble p b) := by
  have hlen : (s.ports.get p).Sound → ((s.ports.get p).assembler ++ [b]).length ≤ 16 := fun h => by
    have := frameComplete_length (h.frame.trans hheld)
    simp only [List.length_append, List.length_singleton]
    omega
  unfold State.assemble
  dsimp only
  simp only [updatePort_get]
  split
  · rename_i hframe
    split
    · rename_i hreply
      exact updatePort_executeFrame_holds s p fun h => ⟨hframe, h.performing (by simpa using hreply) _⟩
    · rw [updatePort_updatePort]
      exact updatePort_holds s p fun h => { h with assembler := hlen h, held := fun _ => rfl, frame := hframe }
  · rename_i hframe
    exact updatePort_holds s p fun h => { h with assembler := hlen h, frame := by rw [hheld]; simpa using hframe }

theorem writeByte_holds (s : State) (p : PortId) (b : Byte) : Holds s (s.writeByte p b) := by
  unfold State.writeByte
  dsimp only
  split
  · exact .refl s
  · split
    · exact updatePort_holds s p fun h => { h with }
    · split
      · rename_i hheld
        exact updatePort_holds s p fun h => { h with held := fun _ => hheld }
      · rename_i hheld
        exact assemble_holds s p b (by simpa using hheld)

theorem request_holds (s : State) (p : PortId) (k : RequestKind) (body : List Byte) : Holds s (s.request p k body) :=
  whenRunning_holds (foldl_keeps Holds.refl (fun _ _ _ => Holds.trans) (fun s b => writeByte_holds s p b) _ s)

theorem writeStatus_holds (s : State) (p : PortId) : Holds s (s.writeStatus p) := by
  unfold State.writeStatus
  split
  · exact .refl s
  · exact updatePort_holds s p fun h => { h with assembler := Nat.zero_le _, held := nofun, frame := rfl }

/-! ### Output (R156) -/

/-- The message goes on at its next byte. -/
theorem Port.advance_next {x : Port} {m : Message} (h : x.inProgress = some m) (hpos : m.position + 1 < m.bytes.length) (b : Byte) :
    x.advance b = { x with
      lastRead := b, inProgress := some { m with position := m.position + 1 }, outReg := m.bytes[m.position + 1]? } := by
  unfold Port.advance
  simp only [h, hpos, if_true]

/-- The message ends with its last byte, and a reply's end empties the reply slot. -/
theorem Port.advance_last {x : Port} {m : Message} (h : x.inProgress = some m) (hpos : ¬ m.position + 1 < m.bytes.length) (b : Byte) :
    x.advance b = { x with lastRead := b, inProgress := none, outReg := none, reply := if m.isReply then none else x.reply } := by
  unfold Port.advance
  simp only [h, hpos, if_false]

theorem Port.Sound.advance_next {x : Port} (h : x.Sound) {m : Message} (hm : x.inProgress = some m)
    (hpos : m.position + 1 < m.bytes.length) (b : Byte) : (x.advance b).Sound := by
  rw [Port.advance_next hm hpos]
  exact { h with
    boundary := nofun
    output := by rintro k ⟨⟩; exact ⟨rfl, hpos⟩
    replyOut := h.replyOut.trans ⟨fun ⟨k, hk, hr⟩ => ⟨_, rfl, by rw [hm] at hk; cases hk; exact hr⟩,
      fun ⟨k, hk, hr⟩ => ⟨m, hm, by cases hk; exact hr⟩⟩ }

/-- A port at whose message boundary no reply is in output, as the arbiter finds it. -/
structure Port.AtBoundary (x : Port) : Prop where
  idle : x.executing = false
  assembler : x.assembler.length ≤ 16
  queue : x.queue.length ≤ 32
  dropped : x.dropped ≤ 255
  held : x.holder ≠ none → x.holding = true
  frame : frameComplete x.assembler = x.holding
  boundary : x.inProgress = none ∧ x.outReg = none
  reply : ∀ r, x.reply = some r → r.inOutput = false ∧ 3 ≤ r.bytes.length
  messages : ∀ n ∈ x.queue, 3 ≤ n.length

/-- After the last byte of a message no reply is left in output. -/
theorem Port.Sound.advance_last {x : Port} (h : x.Sound) {m : Message} (hm : x.inProgress = some m)
    (hpos : ¬ m.position + 1 < m.bytes.length) (b : Byte) : (x.advance b).AtBoundary := by
  rw [Port.advance_last hm hpos]
  refine { h with boundary := ⟨rfl, rfl⟩, reply := fun r hr => ?_, messages := h.messages.1 }
  cases hreply : m.isReply with
  | true => simp [hreply] at hr
  | false =>
    have hr : x.reply = some r := by simpa [hreply] using hr
    refine ⟨?_, h.messages.2 r hr⟩
    by_contra hne
    obtain ⟨k, hk, hkr⟩ := h.replyOut.mp ⟨r, hr, by simpa using hne⟩
    rw [hm] at hk
    cases hk
    simp [hreply] at hkr

/-- The arbiter leaves a sound port (R156). -/
theorem Port.AtBoundary.arbitrate {x : Port} (h : x.AtBoundary) : x.arbitrate.Sound := by
  obtain ⟨hidle, hout⟩ := h.boundary
  cases hr : x.reply with
  | some r =>
    obtain ⟨hwaits, hlen⟩ := h.reply r hr
    rw [Port.arbitrate_reply hidle hr hwaits]
    exact { h with
      boundary := nofun
      output := by rintro m ⟨⟩; exact ⟨by simp [List.head?_eq_getElem?], show 0 < r.bytes.length by omega⟩
      replyOut := ⟨fun _ => ⟨_, rfl, rfl⟩, fun _ => ⟨_, rfl, rfl⟩⟩
      messages := ⟨h.messages, by rintro k ⟨⟩; exact hlen⟩ }
  | none =>
    cases hq : x.queue with
    | nil =>
      rw [Port.arbitrate_empty hidle hr hq]
      exact { h with
        boundary := fun _ => ⟨hr, hq, hout⟩
        output := by simp [hidle]
        replyOut := by simp [hr, hidle]
        messages := ⟨h.messages, by simp [hr]⟩ }
    | cons n rest =>
      have hlen := h.messages n (by simp [hq])
      rw [Port.arbitrate_notice hidle hr hq]
      exact { h with
        queue := by have := h.queue; rw [hq, List.length_cons] at this; show rest.length ≤ 32; omega
        boundary := nofun
        output := by rintro m ⟨⟩; exact ⟨by simp [List.head?_eq_getElem?], show 0 < n.length by omega⟩
        replyOut := by simp [hr]
        messages := ⟨fun k hk => h.messages k (by simp [hq, show k ∈ rest from hk]), by simp [hr]⟩ }

theorem readByte_holds (s : State) (p : PortId) : Holds s (s.readByte p) := by
  unfold State.readByte
  dsimp only
  split
  · exact .refl s
  · split
    · exact updatePort_holds s p fun h => { h with }
    · rename_i b hb
      have hmessage : (s.ports.get p).Sound → ∃ m, (s.ports.get p).inProgress = some m := fun h => by
        by_contra hnone
        have hnone : (s.ports.get p).inProgress = none := by simpa [← Option.ne_none_iff_exists'] using hnone
        simp [(h.boundary hnone).2.2] at hb
      simp only [updatePort_get]
      split
      · rename_i hnext
        refine updatePort_holds s p fun h => ?_
        obtain ⟨m, hm⟩ := hmessage h
        by_cases hpos : m.position + 1 < m.bytes.length
        · exact h.advance_next hm hpos b
        · simp [Port.advance_last hm hpos] at hnext
      · rename_i hend
        have hlast : (s.ports.get p).Sound → ((s.ports.get p).advance b).AtBoundary := fun h => by
          obtain ⟨m, hm⟩ := hmessage h
          refine h.advance_last hm (fun hpos => hend ?_) b
          simp [Port.advance_next hm hpos]
        split
        · rename_i hheld
          simp only [Bool.and_eq_true, Option.isNone_iff_eq_none] at hheld
          refine updatePort_executeFrame_holds s p fun h => ?_
          have hx := hlast h
          exact ⟨hx.frame.trans hheld.1,
            { executing := rfl, reply := hheld.2, queue := hx.queue, dropped := hx.dropped
              boundary := fun _ => hx.boundary.2
              output := fun m hm => absurd (hx.boundary.1.symm.trans hm) nofun
              messages := hx.messages }⟩
        · rw [updatePort_updatePort]
          exact updatePort_holds s p fun h => (hlast h).arbitrate

/-! ### Attendance and port reset (R159, R160) -/

theorem attendanceExpire_holds (s : State) (p : PortId) : Holds s (s.attendanceExpire p) := by
  unfold State.attendanceExpire
  split
  · exact updatePort_holds s p fun h => { h with }
  · exact .refl s

theorem Port.fresh_sound (r : Bool) (b : Byte) : ({ Port.fresh r with lastRead := b } : Port).Sound where
  idle := rfl
  assembler := Nat.zero_le _
  queue := Nat.zero_le _
  dropped := Nat.zero_le _
  held := nofun
  frame := rfl
  boundary _ := ⟨rfl, rfl, rfl⟩
  output := nofun
  replyOut := ⟨nofun, nofun⟩
  messages := ⟨nofun, nofun⟩

theorem resetPort_holds (s : State) (p : PortId) : Holds s (s.resetPort p) := by
  unfold State.resetPort
  dsimp only
  have hstart : Serves s (s.updatePort p fun x => { x with inReset := true }) := updatePort_serves s p (.registers ..)
  exact ((hstart.trans (setBindings_serves ..)).trans (removeEntries_serves ..)).holds.trans
    (updatePort_holds _ p fun _ => Port.fresh_sound true _)

theorem assertPortReset_holds (s : State) (p : PortId) : Holds s (s.assertPortReset p) := by
  unfold State.assertPortReset
  split
  · split
    · exact .refl s
    · exact resetPort_holds ..
  · exact updatePort_holds s p fun h => { h with }

theorem releasePortReset_holds (s : State) (p : PortId) : Holds s (s.releasePortReset p) := by
  unfold State.releasePortReset
  split
  · dsimp only
    have hstart : Holds s (s.updatePort p fun x => { x with inReset := false, attendance := .attended }) :=
      updatePort_holds s p fun h => { h with }
    split
    · exact hstart.trans (updatePort_holds _ p fun h => { h with })
    · exact hstart
  · exact .refl s

end Sys2Proof.Machine
end

section
/-! PROOFS. The maintenance line, the flash inhibit, the resets and the start, and with them every command: what a command keeps of the
invariants, and what it may do to a part whose TB does not count. -/

namespace Sys2Proof.Machine

/-! ### The maintenance line (R172 to R176) -/

/-- A change of the line that leaves the commit in flight. -/
theorem updateMaint_holds (s : State) {f : Maintenance → Maintenance} (h : (f s.maint).commit = s.maint.commit) : Holds s (s.updateMaint f) :=
  { memory := fun hm => { hm with commit := fun c hc => hm.commit c (h ▸ hc) }
    tracks := id
    table := id
    lists := id
    units := unitsTaken_congr (fun _ => rfl) rfl
    ports := fun _ => id }

theorem send_holds (s : State) (items : List LineItem) : Holds s (s.send items) := updateMaint_holds s rfl

theorem sendBytes_holds (s : State) (bytes : List Byte) : Holds s (s.sendBytes bytes) := send_holds ..

theorem setImage_holds (s : State) {m : Memory} (h : Memory.wf s.image → Memory.wf m) : Holds s (s.setImage m) :=
  { memory := fun hm => { hm with image := h hm.image }
    tracks := id
    table := id
    lists := id
    units := unitsTaken_congr (fun _ => rfl) rfl
    ports := fun _ => id }

theorem writeImage_holds (s : State) {addr : Nat} (ha : addr < imageSize) (b : Byte) : Holds s (s.writeImage addr b) := by
  unfold State.writeImage
  refine (setImage_holds s fun h => Memory.write_wf h ha b).trans ?_
  refine foldl_keeps Holds.refl (fun _ _ _ => Holds.trans) (fun s t => ?_) _ _
  split
  · exact foldl_keeps Holds.refl (fun _ _ _ => Holds.trans)
      (fun s i => (settleActiveLevel_keeps s _ t i).holds (settleActiveLevel_only ..)) _ s
  · exact .refl s

theorem lineRead_holds (s : State) (addr : BitVec 10) : Holds s (s.lineRead addr) := by
  unfold State.lineRead State.latchFor State.completeAt
  dsimp only
  split
  · split
    · exact ((updateMaint_holds _ rfl).trans (updateMaint_holds _ rfl)).trans (sendBytes_holds ..)
    · exact (updateMaint_holds _ rfl).trans (sendBytes_holds ..)
  · exact (updateMaint_holds _ rfl).trans (sendBytes_holds ..)

theorem lineWrite_holds (s : State) (addr : BitVec 10) (b : Byte) : Holds s (s.lineWrite addr b) := by
  unfold State.lineWrite State.completeAt
  dsimp only
  split
  · rename_i hopen
    exact (updateMaint_holds _ rfl).trans (writeImage_holds _ hopen.2 b)
  · exact updateMaint_holds _ rfl

theorem lineChecksum_holds (s : State) : Holds s s.lineChecksum := by
  unfold State.lineChecksum
  split <;> exact sendBytes_holds ..

/-- A page write of a page of the store reads 16 bytes of the image. -/
theorem beginPage_holds (s : State) {page : Nat} (h : MemorySound s.store s.image s.maint.commit → page ≤ 31) : Holds s (s.beginPage page) :=
  { memory := fun hm =>
      { hm with
        commit := by
          rintro c ⟨⟩
          exact ⟨h hm, by simp [Memory.readRange, pageSize]⟩ }
    tracks := id
    table := id
    lists := id
    units := unitsTaken_congr (fun _ => rfl) rfl
    ports := fun _ => id }

theorem startCommit_holds (s : State) : Holds s s.startCommit := by
  unfold State.startCommit
  split
  · exact (setImage_holds s fun h => Memory.write_wf (Memory.write_wf h (by decide) _) (by decide) _).trans (beginPage_holds _ fun _ => Nat.zero_le _)
  · exact sendBytes_holds ..

theorem beginCommand_holds (s : State) (b : Byte) : Holds s (s.beginCommand b) := by
  unfold State.beginCommand State.setParser
  split
  · exact .refl s
  · exact updateMaint_holds s rfl
  · exact updateMaint_holds s rfl
  · exact lineRead_holds ..
  · exact updateMaint_holds s rfl
  · exact startCommit_holds s
  · exact lineChecksum_holds s

theorem parse_holds (s : State) (b : Byte) : Holds s (s.parse b) := by
  unfold State.parse State.setParser
  split
  · exact beginCommand_holds ..
  · exact updateMaint_holds s rfl
  · exact lineRead_holds ..
  · exact updateMaint_holds s rfl
  · exact lineWrite_holds ..

theorem collectCode_holds (s : State) (b : Byte) : Holds s (s.collectCode b) := by
  unfold State.collectCode
  dsimp only
  split
  · exact updateMaint_holds s rfl
  · exact (updateMaint_holds s rfl).trans (send_holds ..)

theorem receive_holds (s : State) (b : Byte) : Holds s (s.receive b) := by
  unfold State.receive
  dsimp only
  refine (sendBytes_holds s [b]).trans ?_
  split
  · exact .refl _
  · split
    · exact collectCode_holds ..
    · exact parse_holds ..

theorem receiveAll_holds (s : State) (bytes : List Byte) : Holds s (s.receiveAll bytes) :=
  whenRunning_holds (foldl_keeps Holds.refl (fun _ _ _ => Holds.trans) receive_holds _ s)

theorem endPage_holds (s : State) {c : CommitWrite} (hc : s.maint.commit = some c) : Holds s (s.endPage c) :=
  { memory := fun hm =>
      { hm with
        store := by
          obtain ⟨hpage, hlen⟩ := hm.commit c hc
          refine writeCells_wf _ _ hm.store ?_
          unfold pageSize imageSize
          omega }
    tracks := id
    table := id
    lists := id
    units := unitsTaken_congr (fun _ => rfl) rfl
    ports := fun _ => id }

theorem commitPage_holds (s : State) : Holds s s.commitPage := by
  unfold State.commitPage
  split
  · exact .refl s
  · split
    · rename_i c hc hpage
      refine (endPage_holds s hc).trans (beginPage_holds _ fun _ => ?_)
      have := hpage.2
      unfold lastPage at this
      omega
    · exact .refl s

/-- The end of a commit leaves none in flight. -/
theorem endCommit_holds (s : State) : Holds s (s.updateMaint fun m => { m with commit := none, parser := .idle }) :=
  { memory := fun hm => { hm with commit := nofun }
    tracks := id
    table := id
    lists := id
    units := unitsTaken_congr (fun _ => rfl) rfl
    ports := fun _ => id }

theorem commitEnd_holds (s : State) : Holds s s.commitEnd := by
  unfold State.commitEnd
  split
  · exact .refl s
  · rename_i c hc
    split
    · dsimp only
      have hend := (endPage_holds s hc).trans (endCommit_holds _)
      split
      · exact hend.trans (sendBytes_holds ..)
      · exact (hend.trans ((raise_steady ..).holds (raise_only ..).edges.detectors)).trans (sendBytes_holds ..)
    · exact .refl s

/-! ### Firings and the flash inhibit (R112 to R114) -/

theorem fireCamera_holds (s : State) (st : Station) : Holds s (s.fireCamera st) := by
  refine (fireCamera_steady s st).holds_of ?_
  unfold State.fireCamera
  split
  · exact id
  · exact ((updateEntry_only ..).trans (testDone_only ..)).edges.detectors.unitsTaken ∘ unitsTaken_congr (fun _ => rfl) rfl

theorem fireFlash_holds (s : State) (u : FlashId) : Holds s (s.fireFlash u) := by
  refine (fireFlash_steady s u).holds_of ?_
  unfold State.fireFlash
  split
  · exact id
  · exact ((updateEntry_only ..).trans (testDone_only ..)).edges.detectors.unitsTaken ∘ unitsTaken_congr (fun _ => rfl) rfl

theorem endPulse_holds (s : State) (o : OutputLine) : Holds s (s.endPulse o) := by
  refine (endPulse_steady s o).holds_of (unitsTaken_congr (fun k => ?_) ?_) <;>
    unfold State.endPulse <;> cases o <;> dsimp only <;> split <;> rfl

theorem chargeUnit_holds (s : State) (u : FlashId) : Holds s (s.chargeUnit u) := by
  refine (chargeUnit_steady s u).holds_of (unitsTaken_congr (fun k => ?_) ?_) <;> unfold State.chargeUnit <;> split <;> rfl

theorem ageOutOf_holds (s : State) (o : OutputLine) : Holds s (s.ageOutOf o) := by
  refine (ageOutOf_steady s o).holds_of (unitsTaken_congr (fun k => ?_) ?_) <;>
    unfold State.ageOutOf <;> cases o <;> dsimp only <;> split <;> rfl

/-- FLINH asserted: every unit INHIBITED, and no FLASH entry left in the list (R113). -/
theorem ListsSound.assertInhibit {tb : Time} {triggers : List Entry} {tracks : PerTrack TrackControl} {units : PerUnit FlashUnit}
    {inhibit : Inhibit} (h : ListsSound tb triggers tracks units inhibit) {sel : Entry → Bool} (hsel : ∀ e, e.isCamera = false → sel e = true)
    (x : Inhibit) (hx : x.asserted = true) :
    ListsSound tb (triggers.filter fun e => !sel e) tracks
      (releaseBookings (triggers.filter sel) (.tabulate fun u => { units.get u with state := .inhibited })) x := by
  have hremove := h.remove sel
  have hbookings : ∀ u, ((releaseBookings (triggers.filter sel) (.tabulate fun u => { units.get u with state := .inhibited })).get u).bookings =
      ((releaseBookings (triggers.filter sel) units).get u).bookings := fun u => by
    simp [releaseBookings_get]
  exact
    { hremove with
      bookings := fun u => hbookings u ▸ hremove.bookings u
      booked := fun u => hbookings u ▸ hremove.booked u
      asserted := fun _ => by
        refine ⟨fun u => by simp [releaseBookings_get], fun e he => ?_⟩
        by_contra hne
        simpa [hsel e (by simpa using hne)] using (List.mem_filter.mp he).2
      released := fun hr => absurd hx (by simp [hr]) }

theorem assertInhibit_serves (s : State) : Serves s s.assertInhibit := by
  refine ⟨?_, (removeEntries_only ..).edges.detectors.unitsTaken ∘ unitsTaken_congr (fun _ => rfl) rfl⟩
  unfold State.assertInhibit State.removeEntries
  dsimp only
  refine Keeps.trans ?_ (cancelStations_steady ..).keeps
  refine ⟨id, id, id, fun h => h.assertInhibit (fun e he => ?_) _ rfl, fun _ => .refl _⟩
  simp [State.inhibits, he]

theorem setInhibit_holds (s : State) {x : Inhibit} (hx : x.asserted = s.inhibit.asserted) : Holds s (s.setInhibit x) :=
  { memory := id
    tracks := id
    table := id
    lists := fun h => { h with asserted := fun ha => h.asserted (hx.symm.trans ha), released := fun hr => h.released (hx.symm.trans hr) }
    units := unitsTaken_congr (fun _ => rfl) rfl
    ports := fun _ => id }

theorem flinhHigh_holds (s : State) : Holds s s.flinhHigh := by
  unfold State.flinhHigh
  split
  · split
    · exact .refl s
    · exact (assertInhibit_serves s).holds
  · exact setInhibit_holds s rfl

theorem releaseInhibit_holds (s : State) : Holds s s.releaseInhibit := by
  have hbookings : ∀ u, (s.releaseInhibit.units.get u).bookings = (s.units.get u).bookings := fun u => by
    simp only [State.releaseInhibit, setUnits_units, PerUnit.get_tabulate]
    split <;> rfl
  refine
    { memory := id
      tracks := id
      table := id
      lists := fun h =>
        { h with
          bookings := fun u => hbookings u ▸ h.bookings u
          booked := fun u => hbookings u ▸ h.booked u
          asserted := nofun
          released := fun _ u => ?_ }
      units := unitsTaken_congr (fun _ => rfl) rfl
      ports := fun _ => id }
  simp only [State.releaseInhibit, setUnits_units, PerUnit.get_tabulate]
  split
  · dsimp only
    split <;> simp
  · assumption

theorem flinhLow_holds (s : State) : Holds s s.flinhLow := by
  unfold State.flinhLow
  split
  · split
    · exact .refl s
    · exact releaseInhibit_holds s
  · exact setInhibit_holds s rfl

end Sys2Proof.Machine
end

section
/-! PROOFS. Resets, the start, and what every step keeps (chapters 1 to 10, the state after reset and between events): O54 to O60. -/

namespace Sys2Proof.Machine

/-! ### The state after reset -/

/-- The blocks of a part that no rule but its reset rules has touched, whatever its pins, its store, its image and its access state. -/
structure AsReset (s : State) : Prop where
  tb : s.clock.tb = 0 ∧ s.clock.refPhase = 0
  inputs : ∀ t i, ∃ raw, (s.inputs.get t).get i = .fresh raw
  passages : ∀ t, s.passages.get t = none
  nextPassage : s.nextPassage = 1
  heads : ∀ t b, (s.heads.get t).get b = .fresh
  table : s.table = { records := [], next := 1 }
  stations : ∀ st, s.stations.get st = .fresh
  units : ∀ u, s.units.get u = .fresh
  inhibit : s.inhibit.asserted = false
  triggers : s.triggers = []
  outputs : (∀ st, s.outputs.cam.get st = none) ∧ ∀ u, s.outputs.fire.get u = none
  tracks : ∀ t, s.tracks.get t = .fresh
  unitSnapshot : s.unitSnapshot = none
  ports : ∀ p, s.ports.get p = .fresh (s.ports.get p).inReset
  bindings : ∀ st, s.bindings.get st = none
  faults : s.faults = { flags := 0, held := none }
  maint : s.maint = .fresh s.maint.access

theorem AsReset.fresh {s : State} (h : AsReset s) : FreshBlocks s :=
  { inputs := h.inputs, passages := h.passages, nextPassage := h.nextPassage, heads := h.heads, table := h.table, stations := h.stations
    units := h.units, inhibit := h.inhibit, triggers := h.triggers, cam := h.outputs.1, fire := h.outputs.2, tracks := h.tracks
    unitSnapshot := h.unitSnapshot, ports := fun p => ⟨_, h.ports p⟩, bindings := h.bindings, faults := h.faults, maint := h.maint }

theorem FreshBlocks.asReset {s : State} (h : FreshBlocks s) (htb : s.clock.tb = 0) (hphase : s.clock.refPhase = 0) : AsReset s :=
  { tb := ⟨htb, hphase⟩, inputs := h.inputs, passages := h.passages, nextPassage := h.nextPassage, heads := h.heads, table := h.table
    stations := h.stations, units := h.units, inhibit := h.inhibit, triggers := h.triggers, outputs := ⟨h.cam, h.fire⟩, tracks := h.tracks
    unitSnapshot := h.unitSnapshot, bindings := h.bindings, faults := h.faults, maint := h.maint
    ports := fun p => by
      obtain ⟨r, hr⟩ := h.ports p
      rw [hr]
      rfl }

theorem reset_asReset : AsReset State.reset := by
  constructor <;> intros <;> simp [State.reset, Port.fresh, Maintenance.fresh]

theorem freshBlocks_asReset (s : State) (x : Power) (a : Access) : AsReset (s.freshBlocks x a) := by
  constructor <;> intros <;> simp [State.freshBlocks, State.reset, Port.fresh, Maintenance.fresh]

section

variable {s : State} (h : AsReset s)
include h

theorem AsReset.tracksSound : TracksSound s.passages s.nextPassage s.tracks where
  idle t _ := h.passages t
  snapshot t := by simp [h.tracks t, TrackControl.fresh]
  script t := by simp [h.tracks t, TrackControl.fresh]
  spacing t := by simp [h.tracks t, TrackControl.fresh]
  next := by rw [h.nextPassage]; decide
  passages t := by simp [h.passages t]

theorem AsReset.mode (t : Track) : s.mode t = .out := by simp [State.mode, h.tracks t, TrackControl.fresh]

theorem AsReset.unitsTaken : UnitsTaken s := by simp [UnitsTaken, h.unitSnapshot, h.mode]

theorem AsReset.tableSound : TableSound s.table := by
  rw [h.table]
  constructor <;> simp

theorem AsReset.listsSound : ListsSound s.clock.tb s.triggers s.tracks s.units s.inhibit where
  size := by simp [h.triggers]
  ordered := by simp [h.triggers]
  injections t := by simp [h.tracks t, TrackControl.fresh]
  script t := by simp [h.tracks t, TrackControl.fresh]
  bookings u := by simp [h.units u, FlashUnit.fresh]
  booked u := by simp [h.units u, h.triggers, FlashUnit.fresh]
  asserted ha := by simp [h.inhibit] at ha
  released _ u := by simp [h.units u, FlashUnit.fresh]

theorem AsReset.portSound (p : PortId) : (s.ports.get p).Sound := by
  rw [h.ports p]
  exact Port.fresh_sound _ 0

theorem AsReset.commit : s.maint.commit = none := by rw [h.maint]; rfl

theorem AsReset.injections (t : Track) : (s.tracks.get t).injections = [] := by rw [h.tracks t]; rfl

end

/-! ### Blocks as invariants -/

theorem tracksInv_iff {s : State} : TracksInv s ∧ PassagesInv s ↔ TracksSound s.passages s.nextPassage s.tracks ∧ UnitsTaken s :=
  ⟨fun ⟨h, k⟩ => ⟨h.sound k, h.units⟩,
   fun ⟨h, k⟩ => ⟨⟨h.idle, h.snapshot, h.script, k, h.spacing⟩, ⟨h.next, h.passages⟩⟩⟩

/-- No entry is listed and no edge queued. -/
def NothingListed (s : State) : Prop := s.triggers = [] ∧ ∀ t, (s.tracks.get t).injections = []

theorem listsInv_iff {s : State} : ListsInv s ∧ InhibitInv s ↔
    ListsSound s.clock.tb s.triggers s.tracks s.units s.inhibit ∧ (¬ s.Running → NothingListed s) :=
  ⟨fun ⟨h, k⟩ => ⟨h.sound k, h.held⟩,
   fun ⟨h, k⟩ => ⟨⟨h.size, h.ordered, h.injections, h.script, h.bookings, h.booked, k⟩, ⟨h.asserted, h.released⟩⟩⟩

/-- Settles O54: the state after reset is as its resets leave it, and every block as its resets leave it is sound. -/
theorem resetMeetsEveryInvariant : Obligations.ResetMeetsEveryInvariant := by
  have h := reset_asReset
  have hrunning : ¬ State.reset.Running := by decide
  obtain ⟨htracks, hpassages⟩ := tracksInv_iff.mpr ⟨h.tracksSound, h.unitsTaken⟩
  obtain ⟨hlists, hinhibit⟩ := listsInv_iff.mpr ⟨h.listsSound, fun _ => ⟨h.triggers, h.injections⟩⟩
  exact ⟨⟨fun _ => ⟨h.tb.1, h.tb.2, h.fresh⟩, fun hr => absurd hr hrunning⟩,
    ⟨reset_memory_wf.1, reset_memory_wf.2, by simp [h.commit]⟩, htracks, hpassages, tableInv_iff.mpr h.tableSound, hlists, hinhibit,
    ⟨h.portSound, fun _ => h.ports⟩⟩

/-! ### Resets and the load -/

/-- A stopped commit mixes its page, and none is left in flight (R177). -/
theorem stopCommit_sound {s : State} (h : MemorySound s.store s.image s.maint.commit) (c : Option CommitWrite) (hc : c = none) :
    MemorySound s.stopCommit.store s.image c := by
  refine ⟨?_, h.image, by simp [hc]⟩
  unfold State.stopCommit
  split
  · exact h.store
  · rename_i c hc
    obtain ⟨hpage, hlen⟩ := h.commit c hc
    refine mixCells_wf _ _ h.store ?_
    unfold pageSize imageSize
    omega

/-- A change that leaves the blocks as a reset leaves them makes them sound. -/
theorem AsReset.holds {s u : State} (hu : AsReset u)
    (hmemory : MemorySound s.store s.image s.maint.commit → MemorySound u.store u.image u.maint.commit) : Holds s u :=
  { memory := hmemory
    tracks := fun _ => hu.tracksSound
    table := fun _ => hu.tableSound
    lists := fun _ => hu.listsSound
    units := fun _ => hu.unitsTaken
    ports := fun p _ => hu.portSound p }

theorem setImage_asReset {s : State} (h : AsReset s) (m : Memory) : AsReset (s.setImage m) := { h with }

theorem powerOn_asReset (s : State) : AsReset s.powerOn := setImage_asReset (freshBlocks_asReset ..) []

theorem powerLoss_asReset (s : State) : AsReset s.powerLoss := setImage_asReset (freshBlocks_asReset ..) []

theorem powerOn_holds (s : State) : Holds s s.powerOn :=
  (powerOn_asReset s).holds fun h => { stopCommit_sound h none rfl with image := Memory.wf_nil }

theorem powerLoss_holds (s : State) : Holds s s.powerLoss :=
  (powerLoss_asReset s).holds fun h => { stopCommit_sound h none rfl with image := Memory.wf_nil }

theorem deviceReset_holds (s : State) : Holds s s.deviceReset := by
  unfold State.deviceReset
  split
  · exact .refl s
  · exact (freshBlocks_asReset ..).holds fun h => { stopCommit_sound h none rfl with image := stopCommit_image s ▸ h.image }

/-- A change of the clock that leaves TB. -/
theorem setClock_holds (s : State) {x : Clock} (hx : x.tb = s.clock.tb) : Holds s (s.setClock x) :=
  { memory := id
    tracks := id
    table := id
    lists := fun h => by
      show ListsSound x.tb s.triggers s.tracks s.units s.inhibit
      rwa [hx]
    units := unitsTaken_congr (fun _ => rfl) rfl
    ports := fun _ => id }

/-- The store is sound, so the image loaded from it is. -/
theorem setImage_loaded_holds (s : State) (ok : Bool) : Holds s (s.setImage (if ok then s.store else [])) :=
  { memory := fun h => { h with
      image := by
        show Memory.wf (if ok then s.store else [])
        split
        · exact h.store
        · exact Memory.wf_nil }
    tracks := id
    table := id
    lists := id
    units := unitsTaken_congr (fun _ => rfl) rfl
    ports := fun _ => id }

theorem loadStore_holds (s : State) : Holds s s.loadStore := by
  unfold State.loadStore
  generalize checksumMatches s.store = ok
  exact ((setImage_loaded_holds s ok).trans (setClock_holds _ (x := { s.clock with loadFailed := !ok }) rfl)).trans
    (updateMaint_holds _ rfl)

theorem releaseReset_holds (s : State) (k : BitVec 2) : Holds s (s.releaseReset k) := by
  unfold State.releaseReset
  split
  · exact (setClock_holds s (x := { s.clock with power := .loading, clksel := k }) rfl).trans (loadStore_holds _)
  · exact .refl s

/-! ### The start of TB (R2) -/

theorem raiseStoreInvalid_holds (s : State) : Holds s s.raiseStoreInvalid := by
  unfold State.raiseStoreInvalid
  split
  · exact (setClock_holds s (x := { s.clock with loadFailed := false }) rfl).trans
      ((raise_steady ..).holds (raise_only ..).edges.detectors)
  · exact .refl s

theorem startAttendance_holds (s : State) : Holds s s.startAttendance :=
  { memory := id
    tracks := id
    table := id
    lists := id
    units := unitsTaken_congr (fun _ => rfl) rfl
    ports := fun p h => by
      simp only [State.startAttendance, setPorts_ports, PerPort.get_tabulate]
      split
      · exact h
      · exact { h with } }

theorem markSamples_holds (s : State) (taken : Bool) : Holds s (s.markSamples taken) :=
  ((setInputs_steady s _).holds (by repeat' constructor)).trans (setInhibit_holds _ rfl)

theorem startEvents_serves {s : State} {a : State → State} (ha : a ∈ s.startEvents) (u : State) : Serves u (a u) := by
  unfold State.startEvents at ha
  simp only [List.mem_append, List.mem_map, List.mem_flatMap, List.mem_ite_nil_right, List.mem_singleton] at ha
  obtain (⟨t, _, rfl⟩ | ⟨t, _, i, _, rfl⟩) | ⟨_, rfl⟩ := ha
  · exact ⟨startLive_keeps u t, startLive_unitsTaken u t⟩
  · exact (firstSample_keeps u t i).serves (firstSample_only ..)
  · exact assertInhibit_serves u

/-- From the moment TB counts from 0, the events of its start keep every block. -/
theorem startCounting_holds {s : State} (h : s.clock.power = .loading) :
    Holds (s.setClock { s.clock with power := .running, refPhase := 0, tb := 0 }) s.startCounting := by
  unfold State.startCounting
  rw [if_pos h]
  refine (((raiseStoreInvalid_holds _).trans (startAttendance_holds _)).trans (markSamples_holds _ true)).trans (Serves.holds ?_)
  exact takeAll_keeps Serves.refl (fun _ _ _ => Serves.trans)
    (fun s n => ⟨(setChoices_steady s n).keeps, unitsTaken_congr (fun _ => rfl) rfl⟩) _ (fun a ha u => startEvents_serves ha u) _

theorem startEvents_clock {s : State} {a : State → State} (ha : a ∈ s.startEvents) (u : State) : (a u).clock = u.clock := by
  unfold State.startEvents at ha
  simp only [List.mem_append, List.mem_map, List.mem_flatMap, List.mem_ite_nil_right, List.mem_singleton] at ha
  obtain (⟨t, _, rfl⟩ | ⟨t, _, i, _, rfl⟩) | ⟨_, rfl⟩ := ha
  · exact (startLive_only u t).clock
  · exact (firstSample_only u t i).clock
  · exact (removeEntries_only (((u.setInhibit { pin := true, asserted := true, sampleTaken := true })).setUnits _) _ none true).clock

theorem raiseStoreInvalid_clock (s : State) : s.raiseStoreInvalid.clock = { s.clock with loadFailed := false } := by
  unfold State.raiseStoreInvalid
  split
  · exact (raise_only ..).clock
  · rename_i h
    rw [show s.clock = { s.clock with loadFailed := s.clock.loadFailed } from rfl]
    simp only [h]

/-- TB counts from 0, at the start of a divided period. -/
theorem startCounting_clock {s : State} (h : s.clock.power = .loading) :
    s.startCounting.clock = { s.clock with power := .running, refPhase := 0, tb := 0, loadFailed := false } := by
  unfold State.startCounting
  rw [if_pos h]
  refine (takeAll_keeps (R := fun s u => u.clock = s.clock) (fun _ => rfl) (fun _ _ _ h k => k.trans h) (fun _ _ => rfl) _
    (fun a ha u => startEvents_clock ha u) _).trans ?_
  exact raiseStoreInvalid_clock _

/-! ### Commands -/

/-- What a command other than TB_START keeps. -/
theorem exec_holds {c : Instr} {s u : State} (hc : c ≠ .tbStart) (h : exec c s = .next u) : Holds s u := by
  cases c <;> obtain rfl := Host.Outcome.next.inj h
  case powerOn => exact powerOn_holds s
  case deviceReset => exact deviceReset_holds s
  case deviceResetRelease k => exact releaseReset_holds s k
  case tbStart => exact absurd rfl hc
  case powerLoss => exact powerLoss_holds s
  case rawChange => exact (rawChange_keeps ..).holds (rawChange_only ..)
  case filterAccept => exact whenRunning_holds ((filterExpire_keeps ..).holds (filterExpire_only ..))
  case stuckDeadline => exact whenRunning_holds ((stuckExpire_keeps ..).holds (stuckExpire_only ..))
  case injectedEdgeDelivery t i =>
    refine whenRunning_holds (Serves.holds ⟨deliverInjected_keeps s t i, ?_⟩)
    unfold State.deliverInjected
    dsimp only
    split
    · exact id
    · exact (applyInjected_only ..).unitsTaken ∘ setInjections_unitsTaken s t _
  case injectionStuckDeadline => exact whenRunning_holds ((injectionStuckExpire_keeps ..).holds (injectionStuckExpire_only ..))
  case quietDeadline => exact whenRunning_holds ((quietExpire_steady ..).holds (quietExpire_only ..).detectors)
  case windowDeadline => exact whenRunning_holds ((windowExpire_steady ..).holds (windowExpire_only ..).detectors)
  case wMaxDeadline => exact whenRunning_holds ((wMaxExpire_steady ..).holds (wMaxExpire_only ..).detectors)
  case confirmationDeadline => exact whenRunning_holds ((confirmationDue_steady ..).holds (confirmationDue_only ..).detectors)
  case cameraFire st => exact whenRunning_holds (fireCamera_holds s st)
  case flashFire f => exact whenRunning_holds (fireFlash_holds s f)
  case pulseEnd => exact whenRunning_holds (endPulse_holds ..)
  case chargeDeadline => exact whenRunning_holds (chargeUnit_holds ..)
  case ageOutDeadline => exact whenRunning_holds (ageOutOf_holds ..)
  case flinhAsserted => exact flinhHigh_holds s
  case flinhReleased => exact flinhLow_holds s
  case dataWrite => exact whenRunning_holds (writeByte_holds ..)
  case statusWrite => exact whenRunning_holds (writeStatus_holds ..)
  case dataRead => exact whenRunning_holds (readByte_holds ..)
  case attendanceDeadline => exact whenRunning_holds (attendanceExpire_holds ..)
  case portReset => exact assertPortReset_holds ..
  case portResetRelease => exact releasePortReset_holds ..
  case commitPage => exact whenRunning_holds (commitPage_holds s)
  case commitEnd => exact whenRunning_holds (commitEnd_holds s)
  case lineBreak => exact whenRunning_holds ((updateMaint_holds s rfl).trans (send_holds ..))
  case framingError => exact whenRunning_holds (updateMaint_holds s rfl)
  all_goals first
    | exact request_holds ..
    | exact receiveAll_holds ..

/-! ### A part whose TB does not count -/

/-- What a command may do to a part whose TB does not count, and will not after it: a pin changes, a port is reset or released, the store is
loaded, or a reset returns every block. -/
inductive StoppedEffect (s : State) : State → Prop
  | none : StoppedEffect s s
  | pin (t : Track) (i : Input) (raw : Bool) : StoppedEffect s (s.setConditioner t i { s.conditioner t i with raw := raw })
  | flinh (pin : Bool) : StoppedEffect s (s.setInhibit { s.inhibit with pin := pin })
  | portReset (p : PortId) : StoppedEffect s (s.updatePort p fun x => { x with inReset := true })
  | portRelease (p : PortId) : StoppedEffect s (s.updatePort p fun x => { x with inReset := false, attendance := .attended })
  | load (k : BitVec 2) : StoppedEffect s ((s.setClock { s.clock with power := .loading, clksel := k }).loadStore)
  | reset (u : State) (h : AsReset u) : StoppedEffect s u

theorem StoppedEffect.of_eq {s u : State} (h : u = s) : StoppedEffect s u := h ▸ .none

theorem whenRunning_of_not {s : State} (h : ¬ s.Running) (f : State → State) : s.whenRunning f = s := if_neg h

theorem whenRunning_of_running {s : State} (h : s.Running) (f : State → State) : s.whenRunning f = f s := if_pos h

theorem deviceReset_stopped (s : State) : s.deviceReset = s ∨ AsReset s.deviceReset := by
  unfold State.deviceReset
  split
  · exact .inl rfl
  · exact .inr (freshBlocks_asReset ..)

/-- A command either starts TB, or has one of the effects that a part without a counting TB knows. -/
theorem exec_stopped {c : Instr} {s u : State} (hs : ¬ s.Running) (hu : ¬ u.Running) (h : exec c s = .next u) : StoppedEffect s u := by
  cases c <;> obtain rfl := Host.Outcome.next.inj h
  case powerOn => exact .reset _ (powerOn_asReset s)
  case deviceReset =>
    rcases deviceReset_stopped s with hsame | hreset
    · rw [hsame]
      exact .none
    · exact .reset _ hreset
  case deviceResetRelease k =>
    unfold State.releaseReset
    split
    · exact .load k
    · exact .none
  case tbStart =>
    by_cases hload : s.clock.power = .loading
    · exact absurd (by rw [State.Running, startCounting_clock hload]) hu
    · rw [State.startCounting, if_neg hload]
      exact .none
  case powerLoss => exact .reset _ (powerLoss_asReset s)
  case rawChange t i high =>
    rw [State.rawChange, if_neg hs]
    exact .pin t i high
  case flinhAsserted =>
    rw [State.flinhHigh, if_neg hs]
    exact .flinh true
  case flinhReleased =>
    rw [State.flinhLow, if_neg hs]
    exact .flinh false
  case portReset p =>
    rw [State.assertPortReset, if_neg hs]
    exact .portReset p
  case portResetRelease p =>
    unfold State.releasePortReset
    dsimp only
    split
    · exact (if_neg hs).symm ▸ .portRelease p
    · exact .none
  all_goals exact .of_eq (whenRunning_of_not hs _)

/-- A command that stops TB returns every block to its reset state. -/
theorem exec_stops {c : Instr} {s u : State} (hs : s.Running) (hu : ¬ u.Running) (h : exec c s = .next u) : AsReset u := by
  have hclock := (exec_frame h).clock
  have hsame : setsClock c = true := by
    by_contra hne
    exact hu ((congrArg Clock.power (hclock (by simpa using hne))).trans hs)
  cases c <;> first | exact absurd hsame Bool.false_ne_true | obtain rfl := Host.Outcome.next.inj h
  case powerOn => exact powerOn_asReset s
  case deviceReset =>
    rcases deviceReset_stopped s with heq | hreset
    · exact absurd (heq.symm ▸ hs) hu
    · exact hreset
  case deviceResetRelease k =>
    have hnot : s.clock.power ≠ .inReset := by rw [show s.clock.power = .running from hs]; decide
    rw [State.releaseReset, if_neg hnot] at hu
    exact absurd hs hu
  case tbStart =>
    have hnot : s.clock.power ≠ .loading := by rw [show s.clock.power = .running from hs]; decide
    rw [State.startCounting, if_neg hnot] at hu
    exact absurd hs hu
  case powerLoss => exact powerLoss_asReset s

/-! ### One step -/

/-- The part's own time takes a due expiry where there is one. -/
theorem runOwnTime_due {s : State} (hs : s.Running) (hdue : s.dueNow ≠ []) : ∃ c ∈ s.dueNow, ∃ k, s.runOwnTime = exec c (s.setChoices k) := by
  unfold State.runOwnTime
  rw [if_pos hs]
  match hl : s.dueNow with
  | [] => exact absurd hl hdue
  | [c] => exact ⟨c, by simp, s.choices, rfl⟩
  | c :: d :: rest =>
    have hlt : (s.chooseIndex (rest.length + 2)).1 < (c :: d :: rest).length := Nat.mod_lt _ (by simp)
    refine ⟨(c :: d :: rest).getD (s.chooseIndex (rest.length + 2)).1 c, ?_, s.choices + 1, rfl⟩
    rw [List.getD_eq_getElem _ _ hlt]
    exact List.getElem_mem hlt

theorem runOwnTime_refclk {s : State} (hs : s.Running) (hdue : s.dueNow = []) : s.runOwnTime = .next s.refclk := by
  unfold State.runOwnTime
  rw [if_pos hs, hdue]

/-- A step is a command, or the end of a REFCLK period at which nothing is due, or nothing. -/
inductive StepKind (s u : State) : Prop
  | command (c : Instr) (q : List Instr) (k : Nat) (h : exec c ((s.setPending q).setChoices k) = .next u)
  | refclk (hs : s.Running) (hdue : s.dueNow = []) (h : u = s.refclk)
  | idle (hs : ¬ s.Running) (h : u = s)

theorem step_kind {s u : State} (h : step s = .next u) : StepKind s u := by
  unfold step at h
  split at h
  · rename_i c rest _
    exact .command c rest s.choices h
  · by_cases hs : s.Running
    · by_cases hdue : s.dueNow = []
      · rw [runOwnTime_refclk hs hdue] at h
        exact .refclk hs hdue (Host.Outcome.next.inj h).symm
      · obtain ⟨c, -, k, hk⟩ := runOwnTime_due hs hdue
        exact .command c s.pending k (hk ▸ h)
    · unfold State.runOwnTime at h
      rw [if_neg hs] at h
      exact .idle hs (Host.Outcome.next.inj h).symm

/-- The part without a counting TB takes nothing of its own. -/
theorem runOwnTime_stopped {s : State} (hs : ¬ s.Running) : s.runOwnTime = .next s := if_neg hs

theorem refclk_running {s : State} : s.refclk.clock.power = s.clock.power := by
  unfold State.refclk
  split <;> rfl

/-- Settles O2, by the cases of the part's own time. -/
theorem idleStepRunsOwnTime : Obligations.IdleStepRunsOwnTime := by
  intro s hq
  have hstep : step s = s.runOwnTime := by
    unfold step
    rw [hq]
  have hratio : divideRatio s.clock.clksel =
      if s.clock.clksel = 0 then 10 else if s.clock.clksel = 1 then 12 else if s.clock.clksel = 2 then 16 else 20 := rfl
  rw [hstep]
  refine ⟨runOwnTime_stopped, runOwnTime_due, fun hs hdue hphase => ?_, fun hs hdue hphase => ?_⟩
  · rw [runOwnTime_refclk hs hdue, State.refclk, hratio, if_pos hphase]
  · refine ⟨_, runOwnTime_refclk hs hdue, ?_⟩
    rw [State.refclk, hratio, if_neg (Nat.not_lt.mpr hphase)]
    refine ⟨rfl, fun t i => ?_, rfl, rfl⟩
    simp [State.markSamples, State.conditioner]

/-! ### The obligations of the blocks -/

/-- What a step keeps: a command keeps every block, TB_START from the moment TB counts, and the end of a REFCLK period leaves every block
but the lists, whose order it moves on. -/
theorem step_holds {s u : State} (h : step s = .next u) :
    Holds s u ∨ (s.clock.power = .loading ∧ Holds (s.setClock { s.clock with power := .running, refPhase := 0, tb := 0 }) u) ∨
      (s.Running ∧ s.dueNow = [] ∧ u = s.refclk) := by
  rcases step_kind h with ⟨c, q, k, h⟩ | ⟨hs, hdue, rfl⟩ | ⟨hs, rfl⟩
  · have hstart : ∀ x : State, Holds x ((x.setPending q).setChoices k) := fun x =>
      ((setPending_steady x q).trans (setChoices_steady _ k)).holds_of (unitsTaken_congr (fun _ => rfl) rfl)
    by_cases hc : c = .tbStart
    · subst hc
      obtain rfl := Host.Outcome.next.inj h
      by_cases hload : s.clock.power = .loading
      · exact .inr (.inl ⟨hload, (hstart _).trans (startCounting_holds (s := (s.setPending q).setChoices k) hload)⟩)
      · have hsame : ((s.setPending q).setChoices k).startCounting = (s.setPending q).setChoices k := if_neg hload
        rw [hsame]
        exact .inl (hstart s)
    · exact .inl ((hstart s).trans (exec_holds hc h))
  · exact .inr (.inr ⟨hs, hdue, rfl⟩)
  · exact .inl (.refl u)

/-- A step leaves the part with TB counting, or has an effect that a part without a counting TB knows, or has reset it. -/
theorem step_stopped {s u : State} (h : step s = .next u) (hu : ¬ u.Running) :
    (¬ s.Running ∧ ∃ q k, StoppedEffect ((s.setPending q).setChoices k) u) ∨ AsReset u := by
  rcases step_kind h with ⟨c, q, k, h⟩ | ⟨hs, -, rfl⟩ | ⟨hs, rfl⟩
  · by_cases hs : s.Running
    · exact .inr (exec_stops (s := (s.setPending q).setChoices k) hs hu h)
    · exact .inl ⟨hs, q, k, exec_stopped (s := (s.setPending q).setChoices k) hs hu h⟩
  · exact absurd (refclk_running.trans hs) hu
  · exact .inl ⟨hs, u.pending, u.choices, .none⟩

theorem refclk_memory (s : State) : s.refclk.store = s.store ∧ s.refclk.image = s.image ∧ s.refclk.maint = s.maint := by
  unfold State.refclk
  split <;> exact ⟨rfl, rfl, rfl⟩

theorem refclk_tracks (s : State) : s.refclk.tracks = s.tracks ∧ s.refclk.passages = s.passages ∧ s.refclk.nextPassage = s.nextPassage ∧
    s.refclk.unitSnapshot = s.unitSnapshot ∧ s.refclk.table = s.table ∧ s.refclk.ports = s.ports := by
  unfold State.refclk
  split <;> exact ⟨rfl, rfl, rfl, rfl, rfl, rfl⟩

/-- Settles O56, by what a command keeps: every write is to an address of the image, and a commit writes page by page up to the last. -/
theorem everyStepKeepsStoreAndImage : Obligations.EveryStepKeepsStoreAndImage := by
  intro s u hs h
  rw [memoryInv_iff] at hs ⊢
  rcases step_holds h with hkeep | ⟨-, hkeep⟩ | ⟨-, -, rfl⟩
  · exact hkeep.memory hs
  · exact hkeep.memory hs
  · obtain ⟨hstore, himage, hmaint⟩ := refclk_memory s
    rwa [hstore, himage, hmaint]

/-- Settles O57, by what a command keeps: the estimate's range rests on the wheel spacing that a snapshot's validation has checked. -/
theorem everyStepKeepsTracksAndPassages : Obligations.EveryStepKeepsTracksAndPassages := by
  intro s u ht hp h
  obtain ⟨hsound, hunits⟩ := tracksInv_iff.mp ⟨ht, hp⟩
  rw [tracksInv_iff]
  rcases step_holds h with hkeep | ⟨-, hkeep⟩ | ⟨-, -, rfl⟩
  · exact ⟨hkeep.tracks hsound, hkeep.units hunits⟩
  · exact ⟨hkeep.tracks hsound, hkeep.units hunits⟩
  · obtain ⟨htracks, hpassages, hnext, hunit, -⟩ := refclk_tracks s
    exact ⟨by rwa [htracks, hpassages, hnext], unitsTaken_congr (fun k => by unfold State.mode; rw [htracks]) hunit hunits⟩

/-- Settles O58, by what a command keeps: an allocation finds a number that no record holds. -/
theorem everyStepKeepsTheRecordTable : Obligations.EveryStepKeepsTheRecordTable := by
  intro s u hs h
  rw [tableInv_iff] at hs ⊢
  rcases step_holds h with hkeep | ⟨-, hkeep⟩ | ⟨-, -, rfl⟩
  · exact hkeep.table hs
  · exact hkeep.table hs
  · obtain ⟨-, -, -, -, htable, -⟩ := refclk_tracks s
    rwa [htable]

/-! ### TB advances (R1, R119) -/

theorem mem_dueIf {b : Bool} {c d : Instr} : d ∈ dueIf b c ↔ b = true ∧ d = c := by
  unfold dueIf
  cases b <;> simp

theorem station_mem_all (st : Station) : st ∈ Station.all := by cases st <;> decide

theorem unit_mem_all (u : FlashId) : u ∈ FlashId.all := by cases u <;> decide

theorem track_mem_all (t : Track) : t ∈ Track.all := by cases t <;> decide

theorem beam_mem_all (b : Beam) : b ∈ Beam.all := by cases b <;> decide

theorem port_mem_all (p : PortId) : p ∈ PortId.all := by cases p <;> decide

theorem input_mem_all (i : Input) : i ∈ Input.all := by rcases i with (_ | _) | (_ | _) <;> decide

/-- Where nothing is due no entry has its fire time now. -/
theorem fireAt_ne_of_quiet {s : State} (h : s.dueNow = []) {e : Entry} (he : e ∈ s.triggers) : e.fireAt ≠ s.clock.tb := by
  intro hnow
  have hsome : (s.dueEntry e.output).isSome = true := by
    unfold State.dueEntry
    rw [List.find?_isSome]
    exact ⟨e, he, by simp [hnow, State.now]⟩
  have hnone : ∀ c, c ∉ s.dueNow := by simp [h]
  cases ho : e.output with
  | cam st =>
    refine hnone (.cameraFire st) ?_
    simp only [State.dueNow, List.mem_append, List.mem_flatMap, State.dueOfStation, mem_dueIf]
    exact .inl (.inl (.inl (.inr ⟨st, station_mem_all st, .inl (.inl ⟨ho ▸ hsome, rfl⟩)⟩)))
  | fire f =>
    refine hnone (.flashFire f) ?_
    simp only [State.dueNow, List.mem_append, List.mem_flatMap, State.dueOfUnit, mem_dueIf]
    exact .inl (.inl (.inr ⟨f, unit_mem_all f, .inl (.inl (.inl ⟨ho ▸ hsome, rfl⟩))⟩))

/-- Where nothing is due no injected edge has its time now. -/
theorem injectedAt_ne_of_quiet {s : State} (h : s.dueNow = []) {t : Track} {e : InjectedEdge} (he : e ∈ (s.tracks.get t).injections) :
    e.time ≠ s.clock.tb := by
  intro hnow
  have hnone : Instr.injectedEdgeDelivery t e.input ∉ s.dueNow := by simp [h]
  refine hnone ?_
  simp only [State.dueNow, List.mem_append, List.mem_flatMap, State.dueOfTrack, State.dueOfInput, mem_dueIf]
  refine .inl (.inl (.inl (.inl (.inl ⟨t, track_mem_all t, .inl (.inl ⟨e.input, input_mem_all e.input, .inr ⟨?_, rfl⟩⟩)⟩))))
  exact List.any_eq_true.mpr ⟨e, he, by simp [hnow, State.now]⟩

/-- A time ahead of TB is one nearer after TB has advanced. -/
theorem ahead_succ {x tb : Time} (h : x ≠ tb) : (x - (tb + 1)).toNat + 1 = (x - tb).toNat := by
  have hne : (x - tb).toNat ≠ 0 := fun h0 => h (by bv_omega)
  bv_omega

/-- The order of times from now stays as TB advances past none of them. -/
theorem pairwise_ahead_succ {α : Type} {f : α → Time} {tb : Time} {l : List α} (hl : ∀ a ∈ l, f a ≠ tb)
    (h : l.Pairwise fun a b => (f a - tb).toNat ≤ (f b - tb).toNat) :
    l.Pairwise fun a b => (f a - (tb + 1)).toNat ≤ (f b - (tb + 1)).toNat := by
  refine h.imp_of_mem fun {a b} ha hb hab => ?_
  have h1 := ahead_succ (hl a ha)
  have h2 := ahead_succ (hl b hb)
  omega

theorem refclk_lists {s : State} (hdue : s.dueNow = []) (h : ListsSound s.clock.tb s.triggers s.tracks s.units s.inhibit) :
    ListsSound s.refclk.clock.tb s.refclk.triggers s.refclk.tracks s.refclk.units s.refclk.inhibit := by
  unfold State.refclk
  split
  · exact h
  · exact
      { h with
        ordered := pairwise_ahead_succ (fun e he => fireAt_ne_of_quiet hdue he) h.ordered
        script := fun t => pairwise_ahead_succ (fun e he => injectedAt_ne_of_quiet hdue he) (h.script t) }

/-- Nothing listed leaves the order to no TB value. -/
theorem ListsSound.at_start {tb : Time} {triggers : List Entry} {tracks : PerTrack TrackControl} {units : PerUnit FlashUnit}
    {inhibit : Inhibit} (h : ListsSound tb triggers tracks units inhibit) (htriggers : triggers = [])
    (hinjections : ∀ t, (tracks.get t).injections = []) (x : Time) : ListsSound x triggers tracks units inhibit :=
  { h with ordered := by simp [htriggers], script := fun t => by simp [hinjections t] }

theorem StoppedEffect.nothingListed {s u : State} (h : StoppedEffect s u) (hs : NothingListed s) : NothingListed u := by
  cases h with
  | reset _ h => exact ⟨h.triggers, h.injections⟩
  | _ => exact hs

/-- Settles O59, by what a command keeps: an insertion keeps the order, a removal takes the bookings with the entries, and TB passes no fire
time before it is taken. -/
theorem everyStepKeepsListsAndUnits : Obligations.EveryStepKeepsListsAndUnits := by
  intro s u hl hi h
  obtain ⟨hsound, hheld⟩ := listsInv_iff.mp ⟨hl, hi⟩
  refine listsInv_iff.mpr ⟨?_, fun hu => ?_⟩
  · rcases step_holds h with hkeep | ⟨hload, hkeep⟩ | ⟨-, hdue, rfl⟩
    · exact hkeep.lists hsound
    · obtain ⟨htriggers, hinjections⟩ := hheld (by simp [State.Running, hload])
      exact hkeep.lists (hsound.at_start htriggers hinjections 0)
    · exact refclk_lists hdue hsound
  · rcases step_stopped h hu with ⟨hs, q, k, heffect⟩ | hreset
    · exact heffect.nothingListed (hheld hs)
    · exact ⟨hreset.triggers, hreset.injections⟩

/-! ### Ports and the time base -/

theorem StoppedEffect.portsFresh {s u : State} (h : StoppedEffect s u) (hs : ∀ p, s.ports.get p = .fresh (s.ports.get p).inReset) (p : PortId) :
    u.ports.get p = .fresh (u.ports.get p).inReset := by
  have hupdate : ∀ (q : PortId) (f : Port → Port), (∀ r, f (.fresh r) = .fresh (f (.fresh r)).inReset) →
      (s.updatePort q f).ports.get p = .fresh ((s.updatePort q f).ports.get p).inReset := by
    intro q f hf
    by_cases hq : q = p
    · subst hq
      rw [updatePort_get, hs q]
      exact hf _
    · rw [updatePort_get_ne _ _ hq]
      exact hs p
  cases h with
  | reset _ h => exact h.ports p
  | portReset q => exact hupdate q _ fun _ => rfl
  | portRelease q => exact hupdate q _ fun _ => rfl
  | _ => exact hs p

/-- Settles O60, by what a command keeps: a notice queues only where there is room, a frame is complete exactly while it is held, and an
execution's reply fills the slot that was empty. -/
theorem everyStepKeepsThePorts : Obligations.EveryStepKeepsThePorts := by
  intro s u hs h
  refine ⟨fun p => ?_, fun hu p => ?_⟩
  · rcases step_holds h with hkeep | ⟨-, hkeep⟩ | ⟨-, -, rfl⟩
    · exact hkeep.ports p (hs.sound p)
    · exact hkeep.ports p (hs.sound p)
    · obtain ⟨-, -, -, -, -, hports⟩ := refclk_tracks s
      exact hports ▸ hs.sound p
  · rcases step_stopped h hu with ⟨hstopped, q, k, heffect⟩ | hreset
    · exact heffect.portsFresh (hs.fresh hstopped) p
    · exact hreset.ports p

theorem setConditioner_get (s : State) (t : Track) (i : Input) (c : Conditioner) (k : Track) (j : Input) :
    ((s.setConditioner t i c).inputs.get k).get j = if t = k ∧ i = j then c else (s.inputs.get k).get j := by
  unfold State.setConditioner
  rw [setInputs_inputs, PerTrack.get_modify]
  by_cases hk : t = k
  · by_cases hj : i = j <;> simp [hk, hj]
  · simp [hk]

theorem loadStore_maint (s : State) :
    s.loadStore.maint = { s.maint with access := accessAfterLoad (checksumMatches s.store) s.maint.access } := by
  unfold State.loadStore
  generalize checksumMatches s.store = ok
  rfl

theorem StoppedEffect.asReset {s u : State} (h : StoppedEffect s u) (hs : AsReset s) : AsReset u := by
  have hports := h.portsFresh hs.ports
  cases h with
  | none => exact hs
  | reset _ h => exact h
  | pin t i raw =>
    refine { hs with inputs := fun k j => ?_ }
    rw [setConditioner_get]
    split
    · obtain ⟨r, hr⟩ := hs.inputs t i
      exact ⟨raw, by rw [State.conditioner, hr]; rfl⟩
    · exact hs.inputs k j
  | flinh pin => exact { hs with inhibit := hs.inhibit }
  | portReset p => exact { hs with ports := hports }
  | portRelease p => exact { hs with ports := hports }
  | load k =>
    refine { hs with maint := ?_ }
    rw [loadStore_maint, setClock_maint]
    dsimp only
    generalize accessAfterLoad _ s.maint.access = a
    rw [hs.maint]
    rfl

theorem refclk_phase {s : State} (h : s.clock.refPhase < divideRatio s.clock.clksel) :
    s.refclk.clock.refPhase < divideRatio s.refclk.clock.clksel := by
  unfold State.refclk
  split
  · assumption
  · exact Nat.zero_lt_of_lt h

/-- A command leaves a counting part's divider, and TB_START begins it at 0. -/
theorem exec_phase {c : Instr} {s u : State} (h : exec c s = .next u) (hu : u.Running)
    (hs : s.Running → s.clock.refPhase < divideRatio s.clock.clksel) : u.clock.refPhase < divideRatio u.clock.clksel := by
  by_cases hclock : setsClock c = true
  · cases c <;> first | exact absurd hclock Bool.false_ne_true | obtain rfl := Host.Outcome.next.inj h
    case powerOn => exact absurd (show Power.inReset = .running from hu) nofun
    case powerLoss => exact absurd (show Power.unpowered = .running from hu) nofun
    case deviceReset =>
      unfold State.deviceReset at hu ⊢
      split at hu
      · rw [if_pos ‹_›]
        exact hs hu
      · exact absurd (show Power.inReset = .running from hu) nofun
    case deviceResetRelease k =>
      unfold State.releaseReset at hu ⊢
      split at hu
      · exact absurd (show Power.loading = .running from hu) nofun
      · rw [if_neg ‹_›]
        exact hs hu
    case tbStart =>
      by_cases hload : s.clock.power = .loading
      · have hratio : ∀ k : BitVec 2, 0 < divideRatio k := by decide
        rw [startCounting_clock hload]
        exact hratio _
      · have hsame : s.startCounting = s := if_neg hload
        rw [hsame] at hu ⊢
        exact hs hu
  · have hsame := (exec_frame h).clock (by simpa using hclock)
    unfold State.Running at hu
    rw [hsame] at hu ⊢
    exact hs hu

/-- Settles O55, by what a command may do to a part whose TB does not count: nothing is under way before the start, so every block is as its
reset left it. -/
theorem everyStepKeepsTheTimeBase : Obligations.EveryStepKeepsTheTimeBase := by
  intro s u hs h
  refine ⟨fun hu => ?_, fun hu => ?_⟩
  · have hreset : AsReset u := by
      rcases step_stopped h hu with ⟨hstopped, q, k, heffect⟩ | hreset
      · obtain ⟨htb, hphase, hfresh⟩ := hs.held hstopped
        exact heffect.asReset { hfresh.asReset htb hphase with }
      · exact hreset
    exact ⟨hreset.tb.1, hreset.tb.2, hreset.fresh⟩
  · rcases step_kind h with ⟨c, q, k, h⟩ | ⟨hrun, -, rfl⟩ | ⟨-, rfl⟩
    · exact exec_phase h hu hs.phase
    · exact refclk_phase (hs.phase hrun)
    · exact hs.phase hu

end Sys2Proof.Machine
end

section
/-! PROOFS. Expiries at their time, resets and the load (chapter 1, R3; the reset rules; R172, R175, R177): O3, O6, O7, O8. -/

namespace Sys2Proof.Machine

/-! ### The due expiries (R3) -/

section Due

variable {s : State} {c : Instr}

theorem mem_dueNow_of_track {t : Track} (h : c ∈ s.dueOfTrack t) : c ∈ s.dueNow := by
  simp only [State.dueNow, List.mem_append, List.mem_flatMap]
  exact .inl (.inl (.inl (.inl (.inl ⟨t, track_mem_all t, h⟩))))

theorem mem_dueNow_of_input {t : Track} {i : Input} (h : c ∈ s.dueOfInput t i) : c ∈ s.dueNow :=
  mem_dueNow_of_track (t := t) (List.mem_append_left _ (List.mem_append_left _ (List.mem_flatMap.mpr ⟨i, input_mem_all i, h⟩)))

theorem mem_dueNow_of_head {t : Track} {b : Beam} (h : c ∈ s.dueOfHead t b) : c ∈ s.dueNow :=
  mem_dueNow_of_track (t := t) (List.mem_append_right _ (List.mem_flatMap.mpr ⟨b, beam_mem_all b, h⟩))

theorem mem_dueNow_of_records (h : c ∈ s.dueOfRecords) : c ∈ s.dueNow := by
  simp only [State.dueNow, List.mem_append]
  exact .inl (.inl (.inl (.inl (.inr h))))

theorem mem_dueNow_of_station {st : Station} (h : c ∈ s.dueOfStation st) : c ∈ s.dueNow := by
  simp only [State.dueNow, List.mem_append, List.mem_flatMap]
  exact .inl (.inl (.inl (.inr ⟨st, station_mem_all st, h⟩)))

theorem mem_dueNow_of_unit {u : FlashId} (h : c ∈ s.dueOfUnit u) : c ∈ s.dueNow := by
  simp only [State.dueNow, List.mem_append, List.mem_flatMap]
  exact .inl (.inl (.inr ⟨u, unit_mem_all u, h⟩))

theorem mem_dueNow_of_port {p : PortId} (h : isDue s.now (s.ports.get p).attendAt = true) : .attendanceDeadline p ∈ s.dueNow := by
  simp only [State.dueNow, List.mem_append, List.mem_flatMap]
  exact .inl (.inr ⟨p, port_mem_all p, mem_dueIf.mpr ⟨h, rfl⟩⟩)

theorem mem_dueNow_of_commit (h : c ∈ s.dueOfCommit) : c ∈ s.dueNow := List.mem_append_right _ h

end Due

/-! ### An expiry that is not due -/

section NotDue

variable {s : State}

theorem filterExpire_of_not_due {t : Track} {i : Input} (h : .filterAccept t i ∉ s.dueNow) : s.filterExpire t i = s := by
  unfold State.filterExpire
  dsimp only
  split
  · rfl
  · rename_i f hf
    refine if_neg fun hdue => h (mem_dueNow_of_input (t := t) (i := i) ?_)
    simp only [State.dueOfInput, List.mem_append, mem_dueIf]
    exact .inl (.inl ⟨by simpa [hf] using hdue, trivial⟩)

theorem stuckExpire_of_not_due {t : Track} {w : Wheel} (h : .stuckDeadline t w ∉ s.dueNow) : s.stuckExpire t w = s := by
  refine if_neg fun hdue => h (mem_dueNow_of_input (t := t) (i := .wheel w) ?_)
  simp only [State.dueOfInput, List.mem_append, mem_dueIf]
  exact .inl (.inr (.inl ⟨hdue, trivial⟩))

theorem injectionStuckExpire_of_not_due {t : Track} {w : Wheel} (h : .injectionStuckDeadline t w ∉ s.dueNow) :
    s.injectionStuckExpire t w = s := by
  refine if_neg fun hdue => h (mem_dueNow_of_input (t := t) (i := .wheel w) ?_)
  simp only [State.dueOfInput, List.mem_append, mem_dueIf]
  exact .inl (.inr (.inr ⟨hdue, trivial⟩))

theorem deliverInjected_of_not_due {t : Track} {i : Input} (h : .injectedEdgeDelivery t i ∉ s.dueNow) : s.deliverInjected t i = s := by
  unfold State.deliverInjected
  dsimp only
  split
  · rfl
  · rename_i e he
    refine absurd (mem_dueNow_of_input (t := t) (i := i) ?_) h
    simp only [State.dueOfInput, List.mem_append, mem_dueIf]
    exact .inr ⟨List.any_eq_true.mpr ⟨e, List.mem_of_find?_eq_some he, by simpa using List.find?_some he⟩, trivial⟩

theorem quietExpire_of_not_due {t : Track} (h : .quietDeadline t ∉ s.dueNow) : s.quietExpire t = s := by
  unfold State.quietExpire
  split
  · rfl
  · rename_i p hp
    refine if_neg fun hdue => h (mem_dueNow_of_track (t := t) ?_)
    simp only [State.dueOfTrack, hp, List.mem_append, mem_dueIf]
    exact .inl (.inr ⟨hdue, trivial⟩)

theorem windowExpire_of_not_due {t : Track} {b : Beam} (h : .windowDeadline t b ∉ s.dueNow) : s.windowExpire t b = s := by
  unfold State.windowExpire
  split
  · rename_i hgap
    refine if_neg fun hdue => h (mem_dueNow_of_head (t := t) (b := b) ?_)
    simp only [State.dueOfHead, hgap, List.mem_append, mem_dueIf]
    exact .inl ⟨hdue, trivial⟩
  · rfl

theorem wMaxExpire_of_not_due {t : Track} {b : Beam} (h : .wMaxDeadline t b ∉ s.dueNow) : s.wMaxExpire t b = s := by
  unfold State.wMaxExpire
  split
  · rename_i hcovered
    refine if_neg fun hdue => h (mem_dueNow_of_head (t := t) (b := b) ?_)
    simp only [State.dueOfHead, hcovered, mem_dueIf]
    exact ⟨hdue, trivial⟩
  · rename_i hgap
    refine if_neg fun hdue => h (mem_dueNow_of_head (t := t) (b := b) ?_)
    simp only [State.dueOfHead, hgap, List.mem_append, mem_dueIf]
    exact .inr ⟨hdue, trivial⟩
  · rfl

theorem confirmationDue_of_not_due {n : Nat} (h : .confirmationDeadline n ∉ s.dueNow) : s.confirmationDue n = s := by
  unfold State.confirmationDue
  split
  · rfl
  · rename_i r hr
    refine if_neg fun hdue => h (mem_dueNow_of_records ?_)
    exact List.mem_flatMap.mpr ⟨r, record_mem hr, mem_dueIf.mpr ⟨hdue, by rw [record_number hr]⟩⟩

theorem fireCamera_of_not_due {st : Station} (h : .cameraFire st ∉ s.dueNow) : s.fireCamera st = s := by
  unfold State.fireCamera
  split
  · rfl
  · rename_i he
    refine absurd (mem_dueNow_of_station (st := st) ?_) h
    simp only [State.dueOfStation, List.mem_append, mem_dueIf]
    exact .inl (.inl ⟨by rw [he]; rfl, trivial⟩)

theorem fireFlash_of_not_due {u : FlashId} (h : .flashFire u ∉ s.dueNow) : s.fireFlash u = s := by
  unfold State.fireFlash
  split
  · rfl
  · rename_i he
    refine absurd (mem_dueNow_of_unit (u := u) ?_) h
    simp only [State.dueOfUnit, List.mem_append, mem_dueIf]
    exact .inl (.inl (.inl ⟨by rw [he]; rfl, trivial⟩))

theorem endPulse_of_not_due {o : OutputLine} (h : .pulseEnd o ∉ s.dueNow) : s.endPulse o = s := by
  cases o with
  | cam st =>
    refine if_neg fun hdue => h (mem_dueNow_of_station (st := st) ?_)
    simp only [State.dueOfStation, List.mem_append, mem_dueIf]
    exact .inl (.inr ⟨hdue, trivial⟩)
  | fire u =>
    refine if_neg fun hdue => h (mem_dueNow_of_unit (u := u) ?_)
    simp only [State.dueOfUnit, List.mem_append, mem_dueIf]
    exact .inl (.inl (.inr ⟨hdue, trivial⟩))

theorem chargeUnit_of_not_due {u : FlashId} (h : .chargeDeadline u ∉ s.dueNow) : s.chargeUnit u = s := by
  refine if_neg fun hdue => h (mem_dueNow_of_unit (u := u) ?_)
  simp only [State.dueOfUnit, List.mem_append, mem_dueIf]
  exact .inl (.inr ⟨hdue, trivial⟩)

theorem ageOutOf_of_not_due {o : OutputLine} (h : .ageOutDeadline o ∉ s.dueNow) : s.ageOutOf o = s := by
  cases o with
  | cam st =>
    refine if_neg fun hdue => h (mem_dueNow_of_station (st := st) ?_)
    simp only [State.dueOfStation, List.mem_append, mem_dueIf]
    exact .inr ⟨hdue, trivial⟩
  | fire u =>
    refine if_neg fun hdue => h (mem_dueNow_of_unit (u := u) ?_)
    simp only [State.dueOfUnit, List.mem_append, mem_dueIf]
    exact .inr ⟨hdue, trivial⟩

theorem attendanceExpire_of_not_due {p : PortId} (h : .attendanceDeadline p ∉ s.dueNow) : s.attendanceExpire p = s :=
  if_neg fun hdue => h (mem_dueNow_of_port hdue)

theorem commitPage_of_not_due (h : .commitPage ∉ s.dueNow) : s.commitPage = s := by
  unfold State.commitPage
  split
  · rfl
  · rename_i c hc
    refine if_neg fun hdue => h (mem_dueNow_of_commit ?_)
    simp only [State.dueOfCommit, hc, if_pos hdue.2, mem_dueIf]
    exact ⟨hdue.1, trivial⟩

theorem commitEnd_of_not_due (h : .commitEnd ∉ s.dueNow) : s.commitEnd = s := by
  unfold State.commitEnd
  split
  · rfl
  · rename_i c hc
    refine if_neg fun hdue => h (mem_dueNow_of_commit ?_)
    simp only [State.dueOfCommit, hc, if_neg (Nat.not_lt.mpr hdue.2), mem_dueIf]
    exact ⟨hdue.1, trivial⟩

end NotDue

/-- An event of a counting part that would change nothing changes nothing. -/
theorem whenRunning_eq_self {s : State} {f : State → State} (h : f s = s) : s.whenRunning f = s := by
  unfold State.whenRunning
  split
  · exact h
  · rfl

/-- Settles O3, by the sixteen expiries: each tests its deadline as State.dueNow lists it. -/
theorem expiriesActOnlyAtTheirTime : Obligations.ExpiriesActOnlyAtTheirTime := by
  intro c s hc h
  cases c <;> first | exact absurd hc Bool.false_ne_true | refine congrArg Host.Outcome.next (whenRunning_eq_self ?_)
  case filterAccept => exact filterExpire_of_not_due h
  case stuckDeadline => exact stuckExpire_of_not_due h
  case injectedEdgeDelivery => exact deliverInjected_of_not_due h
  case injectionStuckDeadline => exact injectionStuckExpire_of_not_due h
  case quietDeadline => exact quietExpire_of_not_due h
  case windowDeadline => exact windowExpire_of_not_due h
  case wMaxDeadline => exact wMaxExpire_of_not_due h
  case confirmationDeadline => exact confirmationDue_of_not_due h
  case cameraFire => exact fireCamera_of_not_due h
  case flashFire => exact fireFlash_of_not_due h
  case pulseEnd => exact endPulse_of_not_due h
  case chargeDeadline => exact chargeUnit_of_not_due h
  case ageOutDeadline => exact ageOutOf_of_not_due h
  case attendanceDeadline => exact attendanceExpire_of_not_due h
  case commitPage => exact commitPage_of_not_due h
  case commitEnd => exact commitEnd_of_not_due h

/-! ### Resets (R18 to R177) -/

theorem stopCommit_of_none {s : State} (h : s.maint.commit = none) : s.stopCommit = s := by
  unfold State.stopCommit
  rw [h]

/-- What a stopped commit leaves of the time base, the pins and the ports: all of it. -/
theorem stopCommit_pins (s : State) : s.stopCommit.clock = s.clock ∧ s.stopCommit.inputs = s.inputs ∧ s.stopCommit.inhibit = s.inhibit ∧
    s.stopCommit.ports = s.ports := by
  unfold State.stopCommit
  split <;> exact ⟨rfl, rfl, rfl, rfl⟩

/-- A reset of a part whose commit, if any, is stopped: every block fresh, the pins as they are, the store as it is but for a commit. -/
theorem stopped_freshBlocks (s : State) (power : Power) (access : Access) :
    let u := s.stopCommit.freshBlocks power access
    FreshBlocks u ∧ u.clock = { power := power, clksel := s.clock.clksel, refPhase := 0, tb := 0, loadFailed := false } ∧
      (∀ t i, ((u.inputs.get t).get i).raw = ((s.inputs.get t).get i).raw) ∧ u.inhibit.pin = s.inhibit.pin ∧
      (∀ p, (u.ports.get p).inReset = (s.ports.get p).inReset) ∧ (s.maint.commit = none → u.store = s.store) := by
  obtain ⟨hclock, hinputs, hinhibit, hports⟩ := stopCommit_pins s
  refine ⟨(freshBlocks_asReset ..).fresh, ?_, fun t i => ?_, ?_, fun p => ?_, fun h => ?_⟩
  · rw [← hclock]
    rfl
  · simp [State.freshBlocks, State.conditioner, Conditioner.fresh, hinputs]
  · rw [← hinhibit]
    rfl
  · simp [State.freshBlocks, Port.fresh, hports]
  · rw [stopCommit_of_none h]
    rfl

/-- Settles O6, by what a reset leaves: POWER_ON and POWER_LOSS are it with the image emptied, DEVICE_RESET it alone. -/
theorem resetsGiveFreshBlocks : Obligations.ResetsGiveFreshBlocks := by
  intro s fresh
  refine ⟨⟨s.powerOn, rfl, ?_, rfl, rfl⟩, ⟨s.powerLoss, rfl, ?_, rfl, rfl⟩, fun h => ?_, fun h => ?_⟩
  · exact ⟨(powerOn_asReset s).fresh, (stopped_freshBlocks s .inReset .waitingCode).2⟩
  · exact ⟨(powerLoss_asReset s).fresh, (stopped_freshBlocks s .unpowered .waitingCode).2⟩
  · exact congrArg Host.Outcome.next (if_pos h)
  · exact ⟨_, congrArg Host.Outcome.next (if_neg h), stopped_freshBlocks s .inReset s.maint.access, rfl, stopCommit_image s⟩

/-- The store after a commit is stopped (R177): outside the page in progress as before, in it each byte old or new. -/
theorem stopCommit_read {s : State} {w : CommitWrite} (hm : MemoryInv s) (hw : s.maint.commit = some w) :
    (∀ a, a < 16 * w.page ∨ 16 * w.page + 16 ≤ a → Memory.read s.stopCommit.store a = Memory.read s.store a) ∧
      ∀ k, k < 16 → Memory.read s.stopCommit.store (16 * w.page + k) = Memory.read s.store (16 * w.page + k) ∨
        some (Memory.read s.stopCommit.store (16 * w.page + k)) = w.bytes[k]? := by
  obtain ⟨hpage, hlen⟩ := hm.commit w hw
  have hstore : s.stopCommit.store = mixCells s.choices (16 * w.page) w.bytes s.store := by
    unfold State.stopCommit
    rw [hw]
    rfl
  have hread := mixCells_read s.choices w.bytes hm.store (addr := 16 * w.page) (by unfold imageSize; omega)
  rw [hstore]
  refine ⟨fun a ha => ?_, fun k hk => ?_⟩
  · have hout : (if 16 * w.page ≤ a then w.bytes[a - 16 * w.page]? else none) = none := by
      split
      · exact List.getElem?_eq_none (by omega)
      · rfl
    rw [hread, hout]
  · rw [hread, if_pos (Nat.le_add_right ..), Nat.add_sub_cancel_left, List.getElem?_eq_getElem (by omega)]
    dsimp only
    split
    · exact .inr rfl
    · exact .inl rfl

/-- Settles O7, by what a stopped page write leaves at each address. -/
theorem stoppedCommitMixesOnePage : Obligations.StoppedCommitMixesOnePage := by
  intro s w c hm hw hpower hc
  obtain ⟨houtside, hinside⟩ := stopCommit_read hm hw
  rcases hc with rfl | rfl | rfl
  · exact ⟨s.powerOn, rfl, rfl, houtside, hinside⟩
  · exact ⟨_, congrArg Host.Outcome.next (if_neg hpower), rfl, houtside, hinside⟩
  · exact ⟨s.powerLoss, rfl, rfl, houtside, hinside⟩

theorem checksumOf_eq (m : Memory) : checksumOf m = ((List.range 0x1FE).map fun a => (Memory.read m a).toNat).sum % 65536 := by
  unfold checksumOf Memory.readRange
  rw [List.map_map]
  refine congrArg (fun l : List Nat => l.sum % 65536) (List.map_congr_left fun a _ => ?_)
  rw [Function.comp_apply, Nat.zero_add]

/-- The checksum that a memory should hold agrees with the one it holds (R172). -/
theorem checksumMatches_iff (m : Memory) : checksumMatches m =
    decide (((List.range 0x1FE).map fun a => (Memory.read m a).toNat).sum % 65536 =
      256 * (Memory.read m 0x1FE).toNat + (Memory.read m 0x1FF).toNat) := by
  have hfield : Memory.field m 0x1FE 2 = 256 * (Memory.read m 0x1FE).toNat + (Memory.read m 0x1FF).toNat := by
    rw [Memory.field, Memory.readRange, show List.range 2 = [0, 1] from rfl]
    simp only [List.map_cons, List.map_nil, List.foldl_cons, List.foldl_nil, Nat.reduceAdd]
    omega
  unfold checksumMatches
  rw [checksumOf_eq, hfield]
  rfl

theorem loadStore_eq (s : State) : s.loadStore =
    ((s.setClock { s.clock with loadFailed := !checksumMatches s.store }).setImage (if checksumMatches s.store then s.store else [])).setMaint
      { s.maint with access := accessAfterLoad (checksumMatches s.store) s.maint.access } := by
  unfold State.loadStore
  generalize checksumMatches s.store = ok
  rfl

/-- Settles O8, by the load: its checksum is the sum over the bytes before it. -/
theorem releaseLoadsTheStore : Obligations.ReleaseLoadsTheStore := by
  intro s k sum ok access
  refine ⟨fun h => congrArg Host.Outcome.next (if_neg h), fun h => congrArg Host.Outcome.next ((if_pos h).trans ?_)⟩
  have hok : checksumMatches s.store = ok := checksumMatches_iff s.store
  have haccess : accessAfterLoad ok s.maint.access = access := by
    unfold accessAfterLoad access
    cases ok <;> rfl
  rw [loadStore_eq, setClock_store, setClock_maint, hok, haccess]
  rfl

end Sys2Proof.Machine
end

section
/-! PROOFS. The input conditioners (chapter 1): sampling, the filter's decision, injected edges. O10 to O12. -/

namespace Sys2Proof.Machine

/-! ### Reading and replacing a conditioner -/

section

variable (s : State) (t : Track) (i : Input) (c : Conditioner)

@[simp] theorem conditioner_setConditioner : (s.setConditioner t i c).conditioner t i = c := by
  simp [State.conditioner, State.setConditioner]

@[simp] theorem setConditioner_setConditioner (d : Conditioner) : (s.setConditioner t i c).setConditioner t i d = s.setConditioner t i d := by
  unfold State.setConditioner
  rw [setInputs_inputs]
  refine congrArg s.setInputs (PerTrack.ext_get fun k => ?_)
  by_cases hk : t = k
  · subst hk
    simp only [PerTrack.get_modify_self]
    exact PerInput.ext_get fun j => by by_cases hj : i = j <;> simp [hj]
  · simp [hk]

@[simp] theorem showsActive_setConditioner : (s.setConditioner t i c).showsActive t i = (c.raw == (s.config t).activeHigh.get i) := by
  simp [State.showsActive, State.config, State.setConditioner, State.conditioner]

@[simp] theorem now_setConditioner : (s.setConditioner t i c).now = s.clock.tb := rfl

@[simp] theorem config_setConditioner (k : Track) : (s.setConditioner t i c).config k = s.config k := rfl

/-- A pending filter plays no part in what an acceptance does: it ends. -/
theorem accept_filter (x : Option Filter) (cfg : TrackConfig) (a : Bool) (t0 : Time) :
    ({ c with filter := x } : Conditioner).accept cfg i a t0 = c.accept cfg i a t0 := by
  unfold Conditioner.accept
  dsimp only

/-- A filter accepted with an edge: the pin state changes, and the edge is emitted (R9). -/
theorem acceptFilter_emits {s : State} {t : Track} {i : Input} {c d : Conditioner} {a b : Bool} {x : Time}
    (h : c.accept (s.config t) i a x = (d, some b)) :
    (s.setConditioner t i c).acceptFilter t i a x = (s.setConditioner t i d).emitPinEdge t i b x := by
  unfold State.acceptFilter
  simp only [conditioner_setConditioner, config_setConditioner, setConditioner_setConditioner, h]

theorem acceptFilter_silent {s : State} {t : Track} {i : Input} {c d : Conditioner} {a : Bool} {x : Time}
    (h : c.accept (s.config t) i a x = (d, none)) : (s.setConditioner t i c).acceptFilter t i a x = s.setConditioner t i d := by
  unfold State.acceptFilter
  simp only [conditioner_setConditioner, config_setConditioner, setConditioner_setConditioner, h]

theorem acceptFilter_filter (f : Option Filter) (a : Bool) (x : Time) :
    (s.setConditioner t i { c with filter := f }).acceptFilter t i a x = (s.setConditioner t i c).acceptFilter t i a x := by
  unfold State.acceptFilter
  simp only [conditioner_setConditioner, config_setConditioner, setConditioner_setConditioner, accept_filter]

variable {c} (cfg : TrackConfig) (t0 : Time)

theorem accept_active (h : c.pin = .inactive) :
    c.accept cfg i true t0 = ({ c with filter := none, pin := .active, stuckAt := stuckDeadlineFor cfg i t0 }, some true) := by
  unfold Conditioner.accept
  simp only [h]

theorem accept_inactive (h : c.pin = .active) :
    c.accept cfg i false t0 = ({ c with filter := none, pin := .inactive, stuckAt := none }, some false) := by
  unfold Conditioner.accept
  simp only [h]

/-- Out of STUCK no edge is emitted (R13). -/
theorem accept_unstuck (h : c.pin = .stuck) : c.accept cfg i false t0 = ({ c with filter := none, pin := .inactive, stuckAt := none }, none) := by
  unfold Conditioner.accept
  simp only [h]

end

/-! ### Samples (R5, R7, R8) -/

section Samples

variable {s : State} {t : Track} {i : Input} {high : Bool}

theorem takeSample_of_taken (h : (s.conditioner t i).sampleTaken = true ∨ (s.conditioner t i).raw = high) : s.takeSample t i high = s :=
  if_pos (by simpa using h)

theorem takeSample_first (htaken : (s.conditioner t i).sampleTaken = false) (hraw : (s.conditioner t i).raw ≠ high)
    (hfilter : (s.conditioner t i).filter = none) :
    s.takeSample t i high =
      if (high == (s.config t).activeHigh.get i) = (s.conditioner t i).conditionedActive then
        s.setConditioner t i { s.conditioner t i with raw := high, sampleTaken := true }
      else (s.setConditioner t i { s.conditioner t i with raw := high, sampleTaken := true }).startFilter t i
        (high == (s.config t).activeHigh.get i) := by
  unfold State.takeSample
  simp only [htaken, hraw, hfilter, showsActive_setConditioner, Bool.false_or, beq_iff_eq, if_false]

theorem takeSample_pending (htaken : (s.conditioner t i).sampleTaken = false) (hraw : (s.conditioner t i).raw ≠ high)
    (hfilter : (s.conditioner t i).filter ≠ none) :
    s.takeSample t i high =
      if (high == (s.config t).activeHigh.get i) = (s.conditioner t i).conditionedActive then
        s.setConditioner t i { s.conditioner t i with raw := high, sampleTaken := true, filter := none }
      else s.setConditioner t i { s.conditioner t i with raw := high, sampleTaken := true } := by
  obtain ⟨f, hf⟩ := Option.ne_none_iff_exists'.mp hfilter
  unfold State.takeSample
  simp only [htaken, hraw, hf, showsActive_setConditioner, Bool.false_or, beq_iff_eq, if_false, conditioner_setConditioner,
    setConditioner_setConditioner]

theorem startFilter_setConditioner (c : Conditioner) (a : Bool) : (s.setConditioner t i c).startFilter t i a =
    if (s.config t).nFilt.get i = 0 then (s.setConditioner t i c).acceptFilter t i a s.clock.tb
    else s.setConditioner t i { c with
      filter := some { toActive := a, t0 := s.clock.tb, deadline := s.clock.tb + BitVec.ofNat 32 ((s.config t).nFilt.get i) } } := by
  unfold State.startFilter
  simp only [conditioner_setConditioner, setConditioner_setConditioner, config_setConditioner, now_setConditioner, plus]

theorem isDue_some {now x : Time} : isDue now (some x) = true ↔ x = now := by simp [isDue]

/-- The sample at the deadline decides the filter. -/
theorem filterExpire_setConditioner {c : Conditioner} {f : Filter} (hf : c.filter = some f) (hdue : f.deadline = s.clock.tb) :
    (s.setConditioner t i c).filterExpire t i =
      if (c.raw == (s.config t).activeHigh.get i) = f.toActive then
        (s.setConditioner t i { c with sampleTaken := true }).acceptFilter t i f.toActive f.t0
      else s.setConditioner t i { c with sampleTaken := true, filter := none } := by
  unfold State.filterExpire
  simp only [conditioner_setConditioner, hf, now_setConditioner, isDue_some.mpr hdue, if_true, setConditioner_setConditioner,
    showsActive_setConditioner]

/-- A conditioner replaced by itself. -/
theorem setConditioner_self : s.setConditioner t i (s.conditioner t i) = s := by
  unfold State.setConditioner
  have hsame : (s.inputs.modify t fun cs => cs.set i (s.conditioner t i)) = s.inputs := by
    refine PerTrack.ext_get fun k => ?_
    by_cases hk : t = k
    · subst hk
      rw [PerTrack.get_modify_self]
      refine PerInput.ext_get fun j => ?_
      by_cases hj : i = j <;> simp [hj, State.conditioner]
    · simp [hk]
  rw [hsame]
  rfl

end Samples

/-- Settles O10, by the cases of a sample; with N_FILT = 0 the filter begun is due at once. -/
theorem rawChangeStartsOrCancelsAFilter : Obligations.RawChangeStartsOrCancelsAFilter := by
  intro s t i high c toActive conditioned n sampled
  refine ⟨fun hs => congrArg Host.Outcome.next (if_neg hs), fun hs hsame => ?_, fun hs htaken hraw => ?_⟩
  · exact congrArg Host.Outcome.next ((if_pos hs).trans (takeSample_of_taken hsame))
  · have hexec : exec (.rawChange t i high) s = .next (s.takeSample t i high) := congrArg Host.Outcome.next (if_pos hs)
    have hfirst : c.filter = none → toActive ≠ conditioned → s.takeSample t i high = (s.setConditioner t i sampled).startFilter t i toActive :=
      fun hfilter hne => (takeSample_first htaken hraw hfilter).trans (if_neg hne)
    rw [hexec]
    refine ⟨fun hfilter hne hn => ?_, fun hfilter hne hn => ?_, fun hfilter heq => ?_, fun hfilter heq => ?_, fun hfilter hne => ?_⟩
    · rw [hfirst hfilter hne, startFilter_setConditioner, if_neg hn]
    · rw [hfirst hfilter hne, startFilter_setConditioner, if_pos hn]
      have hexpire : ∀ d, exec (.filterAccept t i) (s.setConditioner t i d) = .next ((s.setConditioner t i d).filterExpire t i) :=
        fun d => congrArg Host.Outcome.next (whenRunning_of_running (s := s.setConditioner t i d) hs _)
      rw [hexpire]
      refine congrArg Host.Outcome.next ?_
      have hdecides := filterExpire_setConditioner (s := s) (t := t) (i := i)
        (c := { sampled with filter := some { toActive := toActive, t0 := s.clock.tb, deadline := s.clock.tb } }) rfl rfl
      rw [if_pos rfl] at hdecides
      refine Eq.trans ?_ hdecides.symm
      exact (acceptFilter_filter s t i sampled (some { toActive := toActive, t0 := s.clock.tb, deadline := s.clock.tb }) _ _).symm
    · rw [takeSample_first htaken hraw hfilter]
      exact congrArg Host.Outcome.next (if_pos heq)
    · rw [takeSample_pending htaken hraw hfilter]
      exact congrArg Host.Outcome.next (if_pos heq)
    · rw [takeSample_pending htaken hraw hfilter]
      exact congrArg Host.Outcome.next (if_neg hne)

/-- Settles O11, by the table of R9. -/
theorem filterAcceptDecidesAtTheDeadline : Obligations.FilterAcceptDecidesAtTheDeadline := by
  intro s t i f c sampled holds monitor emit hs hf hdue
  have hexec : exec (.filterAccept t i) s = .next (s.filterExpire t i) := congrArg Host.Outcome.next (if_pos hs)
  have hdecides := filterExpire_setConditioner (s := s) (t := t) (i := i) (c := c) hf hdue
  rw [show s.setConditioner t i c = s from setConditioner_self] at hdecides
  rw [hexec, hdecides]
  refine ⟨fun hnot => congrArg Host.Outcome.next (if_neg hnot), fun hholds ha hpin => ?_, fun hholds ha hpin => ?_,
    fun hholds ha hpin => ?_⟩ <;>
    rw [if_pos hholds, ha]
  · rw [acceptFilter_emits (accept_active (c := { c with sampleTaken := true }) i _ _ hpin)]
    rfl
  · rw [acceptFilter_emits (accept_inactive (c := { c with sampleTaken := true }) i _ _ hpin)]
    rfl
  · rw [acceptFilter_silent (accept_unstuck (c := { c with sampleTaken := true }) i _ _ hpin)]

/-! ### Injected edges (R15, R147) -/

theorem config_setInjections (s : State) (t : Track) (q : List InjectedEdge) (k : Track) : (s.setInjections t q).config k = s.config k := by
  unfold State.config State.setInjections
  rw [setTracks_tracks]
  by_cases hk : t = k
  · subst hk
    rw [PerTrack.get_modify_self]
    rfl
  · rw [PerTrack.get_modify_ne _ _ hk]
    rfl

/-- Settles O12: the first edge of the input whose time is now is the one found, and it is the one erased. -/
theorem injectedEdgeIsAppliedByTheTable : Obligations.InjectedEdgeIsAppliedByTheTable := by
  intro s t i e before after c u monitor hs hqueue hinput htime hbefore
  have hnone : ∀ x ∈ before, ¬ (x.input == i && x.time == s.now) = true := fun x hx => by
    simpa [State.now] using hbefore x hx
  have hfind : (s.tracks.get t).injections.find? (fun e => e.input == i && e.time == s.now) = some e := by
    rw [hqueue, List.find?_append, List.find?_eq_none.mpr hnone]
    simp [hinput, htime, State.now]
  have herase : (s.tracks.get t).injections.erase e = before ++ after := by
    rw [hqueue, List.erase_append_right _ fun hmem => hbefore e hmem ⟨hinput, htime⟩, List.erase_cons_head]
  have hdeliver : s.deliverInjected t i = u.applyInjected t i e.active := by
    unfold State.deliverInjected
    simp only [hfind, herase]
    rfl
  refine congrArg Host.Outcome.next ((whenRunning_of_running hs _).trans (hdeliver.trans ?_))
  unfold State.applyInjected
  have hconfig : u.config t = s.config t := config_setInjections s t _ t
  rw [hconfig]
  rfl

end Sys2Proof.Machine
end

section
/-! PROOFS. A passage's opening and its close (chapter 2, R23 to R25, R41, R42, R48): O13 and O17. -/

namespace Sys2Proof.Machine

/-! ### Roles (R24, R48) -/

theorem assign_eq (h : HeadUnit) (r : Role) :
    h.assign r = if h.state = .clear then { h with role := r, pendingRole := none } else { h with pendingRole := some r } := by
  unfold HeadUnit.assign
  cases h.state <;> rfl

theorem assignRoles_get (s : State) (t : Track) (ha hb : Role) (b : Beam) :
    ((s.assignRoles t ha hb).heads.get t).get b = ((s.heads.get t).get b).assign (match b with | .ha => ha | .hb => hb) := by
  unfold State.assignRoles
  rw [setHeads_heads, PerTrack.get_modify_self]
  cases b <;> rfl

/-! ### Opening (R23 to R25) -/

theorem wheelEdge_of_out {s : State} {t : Track} (h : s.mode t = .out) (w : Wheel) (a : Bool) (x : Time) : s.wheelEdge t w a x = s := if_pos h

theorem wheelEdge_of_idle {s : State} {t : Track} (h : s.passages.get t = none) (w : Wheel) (a : Bool) (x : Time) :
    s.wheelEdge t w a x = if s.mode t = .out then s else if a then s.openPassage t w x else s := by
  unfold State.wheelEdge
  rw [h]

theorem openPassage_eq (s : State) (t : Track) (w : Wheel) (x : Time) :
    s.openPassage t w x =
      ((((s.setPassages (s.passages.set t (some { openingPassage s.nextPassage w x with
        leading := 1, queue := [x], quietAt := some (quietDeadline (s.config t) x) }))).setNextPassage (nextNumber s.nextPassage)).assignRoles t
          (rolesFor (openingDirection w)).1 (rolesFor (openingDirection w)).2)).setPorts
            (s.offerByTrack .passage t (passageOpenedNotice t (openingPassage s.nextPassage w x))).ports := by
  have hput : ((s.passages.set t (some (openingPassage s.nextPassage w x))).modify t fun p => p.map fun p =>
      { p.leadingEdge x with quietAt := some (quietDeadline (s.config t) x) }) =
      s.passages.set t (some { openingPassage s.nextPassage w x with
        leading := 1, queue := [x], quietAt := some (quietDeadline (s.config t) x) }) := by
    rw [PerTrack.modify, PerTrack.get_set_self, PerTrack.set_set]
    rfl
  rw [← hput]
  rfl

/-- Settles O13, by what the opening leaves. -/
theorem openingEdgeOpensAPassage : Obligations.OpeningEdgeOpensAPassage := by
  intro s t w x p role
  refine ⟨fun a h => wheelEdge_of_out h w a x, fun h => ?_, fun hmode h => ?_⟩
  · rw [wheelEdge_of_idle h, if_neg Bool.false_ne_true, ite_self]
  · have hopen : s.wheelEdge t w true x = s.openPassage t w x := by rw [wheelEdge_of_idle h, if_neg hmode, if_pos rfl]
    have hp : p = { openingPassage s.nextPassage w x with
        leading := 1, queue := [x], quietAt := some (quietDeadline (s.config t) x) } := by cases w <;> rfl
    have hnotice : passageOpenedNotice t p = passageOpenedNotice t (openingPassage s.nextPassage w x) := by
      rw [hp]
      rfl
    rw [hopen, openPassage_eq, ← hp, ← hnotice]
    refine ⟨rfl, rfl, fun b => ?_, fun k hk => ?_, rfl, rfl⟩
    · rw [setPorts_heads, assignRoles_get, assign_eq]
      cases w <;> cases b <;> rfl
    · exact PerTrack.get_modify_ne _ _ (Ne.symm hk)

/-! ### The close test (R41, R42) -/

theorem testClose_of_idle {s : State} {t : Track} (h : s.passages.get t = none) : s.testClose t = s := by
  unfold State.testClose
  rw [h]

theorem testClose_of_open {s : State} {t : Track} {p : Passage} (h : s.passages.get t = some p) :
    s.testClose t = if s.mayClose t p then s.closePassage t p else s := by
  unfold State.testClose
  rw [h]

/-- What holds a passage open (R41): its quiet time, a head under way, or a record that waits. -/
theorem mayClose_iff (s : State) (t : Track) (p : Passage) : s.mayClose t p = true ↔
    ¬ (p.quietElapsed = false ∨ (∃ b, ((s.heads.get t).get b).forming = true) ∨
      ∃ r ∈ s.table.records, r.track = t ∧ r.ofOpenPassage = true ∧ r.confirmation = .waiting) := by
  have hbeams : (∃ b, ((s.heads.get t).get b).forming = true) ↔ (s.head t .ha).forming = true ∨ (s.head t .hb).forming = true :=
    ⟨fun ⟨b, hb⟩ => by cases b <;> [exact .inl hb; exact .inr hb], fun h => h.elim (fun h => ⟨.ha, h⟩) fun h => ⟨.hb, h⟩⟩
  have hrecords : (∃ r ∈ s.table.records, r.track = t ∧ r.ofOpenPassage = true ∧ r.confirmation = .waiting) ↔ s.passageWaits t = true := by
    simp [State.passageWaits, and_assoc]
  rw [hbeams, hrecords]
  simp only [State.mayClose, Bool.and_eq_true, Bool.not_eq_true', not_or, Bool.not_eq_false, Bool.not_eq_true, and_assoc]

theorem closePassage_eq (s : State) (t : Track) (p : Passage) :
    s.closePassage t p = ((((if p.leading = p.trailing then s
      else s.raise { kind := .axleMismatch, track := some t, item := .none, time := s.clock.tb }).offerByTrack .passage t
        (passageClosedNotice t p.flushed s.clock.tb)).setHeads
          (s.heads.set t { ha := (s.heads.get t).ha.assign .none, hb := (s.heads.get t).hb.assign .none })).setPassages
            (s.passages.set t none)).mapRecords fun r => if r.track = t then { r with ofOpenPassage := false } else r := by
  unfold State.closePassage
  by_cases h : p.leading = p.trailing
  · simp only [show p.flushed.leading = p.flushed.trailing from h, h, if_true]
    rfl
  · simp only [show ¬ p.flushed.leading = p.flushed.trailing from h, h, if_false]
    rfl

/-- Settles O17, by what holds a passage open and what its close leaves. -/
theorem quietDeadlineTestsAndCloses : Obligations.QuietDeadlineTestsAndCloses := by
  intro s t back
  refine ⟨testClose_of_idle, fun p hp => ?_⟩
  intro held last judged
  refine ⟨fun h => ?_, fun h => ?_, fun hs hdue => ?_⟩
  · rw [testClose_of_open hp, if_neg fun hmay => (mayClose_iff s t p).mp hmay h]
  · rw [testClose_of_open hp, if_pos ((mayClose_iff s t p).mpr h), closePassage_eq, assign_eq, assign_eq]
    rfl
  · refine congrArg Host.Outcome.next ((whenRunning_of_running hs _).trans ?_)
    unfold State.quietExpire
    simp only [hp, hdue]
    exact if_pos (isDue_some.mpr rfl)

end Sys2Proof.Machine
end

section
/-! PROOFS. The record table (chapter 4): a record by its number, the DONE test, RECORD_FINAL, records that leave WAITING, and allocation.
O23 and O24. -/

namespace Sys2Proof.Machine

/-! ### A record by its number -/

theorem mapRecords_congr {s : State} {f g : HeadRecord → HeadRecord} (h : ∀ r ∈ s.table.records, f r = g r) : s.mapRecords f = s.mapRecords g := by
  unfold State.mapRecords
  rw [List.map_congr_left h]

theorem mapRecords_mapRecords (s : State) (f g : HeadRecord → HeadRecord) : (s.mapRecords f).mapRecords g = s.mapRecords (g ∘ f) := by
  unfold State.mapRecords
  rw [setTable_table, List.map_map]
  rfl

theorem mapRecords_id {s : State} {f : HeadRecord → HeadRecord} (h : ∀ r ∈ s.table.records, f r = r) : s.mapRecords f = s := by
  unfold State.mapRecords
  rw [List.map_congr_left h, List.map_id']
  rfl

theorem record_none_iff {s : State} {n : Nat} : s.record n = none ↔ ∀ r ∈ s.table.records, r.number ≠ n := by
  simp [State.record]

section Distinct

variable {s : State} (hs : s.DistinctNumbers)
include hs

theorem record_of_mem {r : HeadRecord} (hr : r ∈ s.table.records) : s.record r.number = some r := by
  obtain ⟨o, ho⟩ : ∃ o, s.record r.number = some o := by
    rw [← Option.ne_none_iff_exists']
    exact fun hnone => record_none_iff.mp hnone r hr rfl
  rw [ho, List.inj_on_of_nodup_map hs (record_mem ho) hr (record_number ho)]

theorem eq_of_record {n : Nat} {r o : HeadRecord} (hr : s.record n = some r) (ho : o ∈ s.table.records) (hn : o.number = n) : o = r :=
  List.inj_on_of_nodup_map hs ho (record_mem hr) (hn.trans (record_number hr).symm)

/-- Changing the one record of a number, by a function of it or of the number alone, is the same. -/
theorem updateRecord_eq_put {n : Nat} {r : HeadRecord} (hr : s.record n = some r) (f : HeadRecord → HeadRecord) :
    s.updateRecord n f = s.mapRecords fun o => if o.number = n then f r else o :=
  mapRecords_congr fun o ho => by
    split
    · rw [eq_of_record hs hr ho ‹_›]
    · rfl

end Distinct

theorem updateRecord_of_none {s : State} {n : Nat} (h : s.record n = none) (f : HeadRecord → HeadRecord) : s.updateRecord n f = s :=
  mapRecords_id fun r hr => if_neg (record_none_iff.mp h r hr)

/-- The records' numbers stay. -/
def SameNumbers (s u : State) : Prop := u.table.records.map (·.number) = s.table.records.map (·.number)

theorem SameNumbers.trans {s t u : State} (h : SameNumbers s t) (k : SameNumbers t u) : SameNumbers s u := Eq.trans k h

theorem SameNumbers.distinct {s u : State} (h : SameNumbers s u) (hs : s.DistinctNumbers) : u.DistinctNumbers := by
  unfold State.DistinctNumbers
  rwa [h]

theorem mapRecords_numbers {s : State} {f : HeadRecord → HeadRecord} (h : ∀ r, (f r).number = r.number) : SameNumbers s (s.mapRecords f) := by
  unfold SameNumbers State.mapRecords
  rw [setTable_table, List.map_map]
  exact List.map_congr_left fun r _ => h r

theorem OnlyPorts.sameNumbers {s u : State} (h : OnlyPorts s u) : SameNumbers s u := by rw [SameNumbers, h.table]

theorem OnlyReports.sameNumbers {s u : State} (h : OnlyReports s u) : SameNumbers s u := by rw [SameNumbers, h.table]

/-! ### RECORD_FINAL and the DONE test (R79, R80) -/

theorem offerRecordFinal_of_some {s : State} {n : Nat} {r : HeadRecord} (h : s.record n = some r) :
    s.offerRecordFinal n = s.offerByTrack .record r.track (recordFinalNotice r) := by
  unfold State.offerRecordFinal
  rw [h]

/-- A record that becomes final is reported as it then stands. -/
theorem finishRecord_of_some {s : State} {n : Nat} {r : HeadRecord} (h : s.record n = some r) (x : RecordState) :
    s.finishRecord n x =
      (s.updateRecord n fun r => { r with state := x }).offerByTrack .record r.track (recordFinalNotice { r with state := x }) := by
  unfold State.finishRecord
  have hget := record_updateRecord s n (f := fun r => { r with state := x }) fun _ => rfl
  rw [h] at hget
  exact offerRecordFinal_of_some hget

theorem settled_iff (e : StationEntry) : e.settled = true ↔ e.camera ≠ .pending ∧ e.flash ≠ .booked := by
  simp [StationEntry.settled, CameraOutcome.final, FlashResult.final]

theorem isDone_iff (r : HeadRecord) : r.isDone = true ↔
    r.state = .planned ∧ r.confirmation ≠ .waiting ∧ ∀ e ∈ r.entries, e.camera ≠ .pending ∧ e.flash ≠ .booked := by
  simp only [HeadRecord.isDone, Bool.and_eq_true, beq_iff_eq, bne_iff_ne, List.all_eq_true, settled_iff, and_assoc]

theorem finished_of_done {r : HeadRecord} (h : r.isDone = true) : r.finished = { r with state := .done } := if_pos ((isDone_iff r).mp h)

theorem finished_of_open {r : HeadRecord} (h : r.isDone = false) : r.finished = r := if_neg fun hd => by
  simp [(isDone_iff r).mpr hd] at h

theorem becomesDone_iff (r : HeadRecord) : r.state = .planned ∧ r.finished.state = .done ↔ r.isDone = true := by
  cases h : r.isDone with
  | true => simp [finished_of_done h, ((isDone_iff r).mp h).1]
  | false => simp +contextual [finished_of_open h]

theorem changesRecord_of_none {s : State} {n : Nat} (h : s.record n = none) (f : HeadRecord → HeadRecord) : s.changesRecord n f = s := by
  unfold State.changesRecord
  rw [show (s.oldest fun r => r.number == n) = none from h]

theorem changesRecord_of_some {s : State} {n : Nat} {r : HeadRecord} (h : s.record n = some r) (f : HeadRecord → HeadRecord) :
    s.changesRecord n f =
      let u := s.mapRecords fun o => if o.number = n then (f o).finished else o
      if (f r).isDone then u.offerByTrack .record r.track (recordFinalNotice (f r).finished) else u := by
  unfold State.changesRecord
  rw [show (s.oldest fun r => r.number == n) = some r from h]
  simp only [becomesDone_iff]

/-- A record changed and tested for DONE (R79). -/
theorem testDone_updateRecord {s : State} (hs : s.DistinctNumbers) (n : Nat) {f : HeadRecord → HeadRecord}
    (hnumber : ∀ r, (f r).number = r.number) (htrack : ∀ r, (f r).track = r.track) : (s.updateRecord n f).testDone n = s.changesRecord n f := by
  cases hr : s.record n with
  | none =>
    rw [updateRecord_of_none hr, changesRecord_of_none hr]
    unfold State.testDone
    rw [hr]
  | some r =>
    have hget : (s.updateRecord n f).record n = some (f r) := by
      rw [record_updateRecord s n hnumber, hr]
      rfl
    rw [changesRecord_of_some hr]
    unfold State.testDone
    rw [hget]
    dsimp only
    cases hdone : (f r).isDone with
    | false =>
      refine mapRecords_congr fun o ho => ?_
      split
      · rw [eq_of_record hs hr ho ‹_›, finished_of_open hdone]
      · rfl
    | true =>
      rw [if_pos rfl, if_pos rfl, finishRecord_of_some hget, finished_of_done hdone, htrack]
      refine congrArg (fun u : State => u.offerByTrack .record r.track _) ?_
      refine (mapRecords_mapRecords ..).trans (mapRecords_congr fun o ho => ?_)
      rw [Function.comp_apply]
      by_cases hn : o.number = n
      · obtain rfl := eq_of_record hs hr ho hn
        rw [if_pos hn, if_pos ((hnumber o).trans hn), if_pos hn, finished_of_done hdone]
      · rw [if_neg hn, if_neg hn, if_neg hn]

theorem finished_number (r : HeadRecord) : r.finished.number = r.number := by
  unfold HeadRecord.finished
  split <;> rfl

theorem changesRecord_numbers (s : State) (n : Nat) {f : HeadRecord → HeadRecord} (hf : ∀ r, (f r).number = r.number) :
    SameNumbers s (s.changesRecord n f) := by
  have hput : SameNumbers s (s.mapRecords fun o => if o.number = n then (f o).finished else o) := mapRecords_numbers fun r => by
    split
    · rw [finished_number, hf]
    · rfl
  cases hr : s.record n with
  | none =>
    rw [changesRecord_of_none hr]
    rfl
  | some r =>
    rw [changesRecord_of_some hr]
    dsimp only
    split
    · exact hput.trans (offerByTrack_only ..).sameNumbers
    · exact hput

theorem changesRecord_only (s : State) (n : Nat) (f : HeadRecord → HeadRecord) : OnlyRecords s (s.changesRecord n f) := by
  cases hr : s.record n with
  | none =>
    rw [changesRecord_of_none hr]
    exact .refl s
  | some r =>
    have hput : OnlyRecords s (s.mapRecords fun o => if o.number = n then (f o).finished else o) := by repeat' constructor
    rw [changesRecord_of_some hr]
    dsimp only
    split
    · exact hput.trans (offerByTrack_only ..).records
    · exact hput

/-! ### Leaving WAITING (R64 to R67) -/

theorem closePassage_numbers (s : State) (t : Track) (p : Passage) : SameNumbers s (s.closePassage t p) := by
  rw [closePassage_eq]
  refine SameNumbers.trans (t := if p.leading = p.trailing then s
    else s.raise { kind := .axleMismatch, track := some t, item := .none, time := s.clock.tb }) ?_ ?_
  · split
    · rfl
    · exact (raise_only ..).sameNumbers
  · refine SameNumbers.trans ?_ (mapRecords_numbers fun r => ?_)
    · rfl
    · split <;> rfl

theorem testClose_numbers (s : State) (t : Track) : SameNumbers s (s.testClose t) := by
  cases hp : s.passages.get t with
  | none =>
    rw [testClose_of_idle hp]
    rfl
  | some p =>
    rw [testClose_of_open hp]
    split
    · exact closePassage_numbers ..
    · rfl

theorem leaveWaiting_eq {s : State} (hs : s.DistinctNumbers) (t : Track) (n : Nat) {f : HeadRecord → HeadRecord}
    (hnumber : ∀ r, (f r).number = r.number) (htrack : ∀ r, (f r).track = r.track) :
    s.leaveWaiting t n f = (s.changesRecord n f).testClose t := by
  unfold State.leaveWaiting
  rw [testDone_updateRecord hs n hnumber htrack]

/-- The records still overdue become MISSING one by one (R67). -/
theorem settleOverdue_eq {s : State} (hs : s.DistinctNumbers) (t : Track) : s.settleOverdue t = s.missesOverdue t := by
  have hfilter : (s.table.records.filter fun r => r.track == t && r.overdue) =
      s.table.records.filter fun r => decide (r.track = t ∧ r.overdue = true) :=
    List.filter_congr fun r _ => by
      by_cases ht : r.track = t <;> cases ho : r.overdue <;> simp [ht]
  unfold State.settleOverdue State.missesOverdue
  rw [hfilter, List.foldl_map]
  clear hfilter
  generalize (s.table.records.filter fun r => decide (r.track = t ∧ r.overdue = true)) = l
  induction l generalizing s with
  | nil => rfl
  | cons r l ih =>
    rw [List.foldl_cons, List.foldl_cons, leaveWaiting_eq hs t r.number (f := HeadRecord.missed) (fun _ => rfl) fun _ => rfl]
    exact ih (((changesRecord_numbers s r.number (f := HeadRecord.missed) fun _ => rfl).trans (testClose_numbers ..)).distinct hs)

theorem farUnderWay_iff (s : State) (t : Track) : s.farUnderWay t = true ↔
    ∃ b, ((s.heads.get t).get b).role = .far ∧ ((s.heads.get t).get b).forming = true := by
  simp only [State.farUnderWay, List.any_eq_true, Bool.and_eq_true, beq_iff_eq, State.head]
  exact ⟨fun ⟨b, _, h⟩ => ⟨b, h⟩, fun ⟨b, h⟩ => ⟨b, beam_mem_all b, h⟩⟩

/-- A confirmation deadline that is due (R66). -/
theorem confirmationDue_of_due {s : State} {n : Nat} {r : HeadRecord} (hr : s.record n = some r) (hwaits : r.confirmation = .waiting)
    (hdue : r.confirmAt = some s.clock.tb) : s.confirmationDue n = s.confirmationExpire r := by
  unfold State.confirmationDue
  rw [hr]
  exact if_pos (by simp [hwaits, isDue, hdue, State.now])

/-- Settles O24, by the record of the number and the DONE test. -/
theorem confirmationDeadlineMakesMissingOrOverdue : Obligations.ConfirmationDeadlineMakesMissingOrOverdue := by
  intro s r under hs hr hdistinct hwaits hdue
  have hrec := record_of_mem hdistinct hr
  have hexec : exec (.confirmationDeadline r.number) s = .next (s.confirmationExpire r) :=
    congrArg Host.Outcome.next ((whenRunning_of_running hs _).trans (confirmationDue_of_due hrec hwaits hdue))
  rw [hexec]
  unfold State.confirmationExpire
  refine ⟨fun hunder => ?_, fun hnot => ?_⟩
  · rw [if_pos ((farUnderWay_iff s r.track).mpr hunder)]
    exact congrArg Host.Outcome.next (updateRecord_eq_put hdistinct hrec fun x => { x with confirmAt := none, overdue := true })
  · rw [if_neg fun h => hnot ((farUnderWay_iff s r.track).mp h),
      leaveWaiting_eq hdistinct r.track r.number (f := HeadRecord.missed) (fun _ => rfl) fun _ => rfl]
    rfl

/-! ### Allocation (R81, R82, R84) -/

theorem final_iff (r : HeadRecord) : r.state.final = (r.state != .forming && r.state != .planned) := by
  cases r.state <;> rfl

theorem makeRoom_free {records : List HeadRecord} (h : records.length < 16) : makeRoom records = some records := if_pos h

theorem makeRoom_full {records : List HeadRecord} (h : records.length = 16) :
    makeRoom records = (records.find? fun r => r.state.final).map fun old => records.erase old :=
  if_neg (by simp [tableSize, h])

/-- Settles O23: the number searched for is found within the seventeen that follow, since at most fifteen records keep one. -/
theorem allocationTakesASlotAndAFreeNumber : Obligations.AllocationTakesASlotAndAFreeNumber := by
  intro s t p stamp hlen held final
  have hfinal : ∀ r, final r = r.state.final := fun r => (final_iff r).symm
  have hallocate : ∀ n u, s.allocate t p stamp = some (n, u) ↔ ∃ room, makeRoom held = some room ∧
      n = freeNumber (tableSize + 1) s.table.next room ∧
      u = s.setTable { records := room ++ [newRecord n t p (s.mode t == .test) stamp], next := nextNumber n } := by
    intro n u
    unfold State.allocate
    rw [Option.map_eq_some_iff]
    constructor
    · rintro ⟨room, hroom, heq⟩
      obtain ⟨rfl, rfl⟩ := Prod.mk.inj heq
      exact ⟨room, hroom, rfl, rfl⟩
    · rintro ⟨room, hroom, rfl, rfl⟩
      exact ⟨room, hroom, rfl⟩
  refine ⟨?_, fun n u h => ?_⟩
  · unfold State.allocate
    rw [Option.map_eq_none_iff]
    by_cases hfull : held.length = 16
    · rw [makeRoom_full hfull, Option.map_eq_none_iff, List.find?_eq_none]
      simp [hfull, hfinal, held]
    · rw [makeRoom_free (lt_of_le_of_ne hlen hfull)]
      simp [hfull]
  · obtain ⟨room, hroom, rfl, rfl⟩ := (hallocate n u).mp h
    obtain ⟨hsub, hroomlen⟩ := makeRoom_spec hroom hlen
    obtain ⟨k, hk, hbefore, hfree⟩ := freeNumber_free s.table.next (records := room) (by omega)
    refine ⟨fun j => nextNumber^[j] s.table.next, room, k, fun hlt => ?_, fun hfull => ?_, rfl, fun j => ?_, hk, hbefore, hk ▸ hfree, ?_⟩
    · rw [makeRoom_free hlt] at hroom
      exact (Option.some.inj hroom).symm
    · rw [makeRoom_full hfull] at hroom
      obtain ⟨old, hold, rfl⟩ := Option.map_eq_some_iff.mp hroom
      obtain ⟨hfin, before, after, heq, hnot⟩ := List.find?_eq_some_iff_append.mp hold
      refine ⟨before, old, after, heq, (hfinal old).trans hfin, fun r hr => (hfinal r).trans (by simpa using hnot r hr), ?_⟩
      have hmem : old ∉ before := fun hmem => by
        have := hnot old hmem
        simp [hfin] at this
      rw [heq, List.erase_append_right _ hmem, List.erase_cons_head]
    · exact Function.iterate_succ_apply' nextNumber j s.table.next
    · have hnext : nextNumber^[k + 1] s.table.next = nextNumber (freeNumber (tableSize + 1) s.table.next room) := by
        rw [Function.iterate_succ_apply', hk]
      dsimp only
      rw [hnext]
      rfl

end Sys2Proof.Machine
end

section
/-! PROOFS. The head detector units (chapter 3): a head's beginning, its strips, its close in role FAR, blocked beams. O18, O19, O20, O22. -/

namespace Sys2Proof.Machine

/-! ### Reading and replacing a unit -/

section

variable (s : State) (t : Track) (b : Beam) (u : HeadUnit)

theorem head_setHead : (s.setHead t b u).head t b = u := by simp [State.head, State.setHead]

theorem setHead_setHead (v : HeadUnit) : (s.setHead t b u).setHead t b v = s.setHead t b v := by
  unfold State.setHead
  rw [setHeads_heads]
  refine congrArg s.setHeads (PerTrack.ext_get fun k => ?_)
  by_cases hk : t = k
  · subst hk
    simp only [PerTrack.get_modify_self]
    exact PerBeam.ext_get fun j => by by_cases hj : b = j <;> simp [hj]
  · simp [hk]

theorem setHeadState_eq (x : HeadState) : s.setHeadState t b x = s.setHead t b { (s.heads.get t).get b with state := x } := rfl

/-- A unit's state replaced twice: its roles are those of the first. -/
theorem setHeadState_setHead (x y : HeadState) :
    (s.setHead t b { u with state := x }).setHeadState t b y = s.setHead t b { u with state := y } := by
  unfold State.setHeadState
  rw [head_setHead, setHead_setHead]

end

/-- A head under way keeps its passage open (R41). -/
theorem testClose_of_forming {s : State} {t : Track} {b : Beam} (h : ((s.heads.get t).get b).forming = true) : s.testClose t = s := by
  cases hp : s.passages.get t with
  | none => exact testClose_of_idle hp
  | some p =>
    rw [testClose_of_open hp, if_neg fun hmay => (mayClose_iff s t p).mp hmay (.inr (.inl ⟨b, h⟩))]

theorem missesOverdue_heads {s : State} {t : Track} {b : Beam} (h : ((s.heads.get t).get b).forming = true) :
    (s.missesOverdue t).heads = s.heads := by
  unfold State.missesOverdue
  generalize (s.table.records.filter fun r => decide (r.track = t ∧ r.overdue = true)) = l
  induction l generalizing s with
  | nil => rfl
  | cons r l ih =>
    have hsame := (changesRecord_only s r.number fun x => { x with confirmation := .missing, confirmAt := none, overdue := false }).heads
    have hforming := hsame ▸ h
    rw [List.foldl_cons, testClose_of_forming hforming, ih hforming, hsame]

/-! ### Blocked beams (R58) -/

section

variable {s : State} {t : Track} {b : Beam} {h : Head}

/-- The unit BLOCKED, with its fault raised. -/
def State.blockedBy (s : State) (t : Track) (b : Beam) : State :=
  (s.setHead t b { (s.heads.get t).get b with state := .blocked }).raise
    { kind := .headBlocked, track := some t, item := .input (.beam b), time := s.clock.tb }

theorem enterBlocked_none (hrole : ((s.heads.get t).get b).role = .none) : s.enterBlocked t b h = (s.blockedBy t b).testClose t := by
  unfold State.enterBlocked
  simp only [State.head, hrole]
  rfl

theorem enterBlocked_far (hrole : ((s.heads.get t).get b).role = .far) (hs : s.DistinctNumbers) :
    s.enterBlocked t b h = ((s.blockedBy t b).missesOverdue t).testClose t := by
  rw [← settleOverdue_eq (s := s.blockedBy t b) hs]
  unfold State.enterBlocked
  simp only [State.head, hrole]
  rfl

theorem enterBlocked_near_without (hrole : ((s.heads.get t).get b).role = .near) (hrecord : h.record = none) :
    s.enterBlocked t b h = (s.blockedBy t b).testClose t := by
  unfold State.enterBlocked
  simp only [State.head, hrole, hrecord]
  rfl

theorem enterBlocked_near (hrole : ((s.heads.get t).get b).role = .near) {n : Nat} (hrecord : h.record = some n) :
    s.enterBlocked t b h = ((s.blockedBy t b).blockRecord n).testClose t := by
  unfold State.enterBlocked
  simp only [State.head, hrole, hrecord]
  rfl

/-- Only the head's record bears on what entering BLOCKED does, besides the unit's roles. -/
theorem enterBlocked_congr {h' : Head} (hrecord : h'.record = h.record) (x : HeadState) :
    (s.setHead t b { (s.heads.get t).get b with state := x }).enterBlocked t b h' = s.enterBlocked t b h := by
  unfold State.enterBlocked
  simp only [setHeadState_setHead, head_setHead, hrecord]
  rfl

theorem wMaxExpire_of_covered (hcovered : ((s.heads.get t).get b).state = .covered h) :
    s.wMaxExpire t b = if isDue s.now h.wMaxAt then s.enterBlocked t b h else s := by
  unfold State.wMaxExpire
  simp only [State.head, hcovered]

theorem wMaxExpire_of_gap {x a : Time} (hgap : ((s.heads.get t).get b).state = .gap h x a) :
    s.wMaxExpire t b = if isDue s.now h.wMaxAt then
      s.setHead t b { (s.heads.get t).get b with state := .gap { h with wMaxAt := none, limitPassed := true } x a } else s := by
  unfold State.wMaxExpire
  simp only [State.head, hgap]
  rfl

theorem exec_wMaxDeadline (hs : s.Running) (t : Track) (b : Beam) : exec (.wMaxDeadline t b) s = .next (s.wMaxExpire t b) :=
  congrArg Host.Outcome.next (whenRunning_of_running hs _)

theorem exec_windowDeadline (hs : s.Running) (t : Track) (b : Beam) : exec (.windowDeadline t b) s = .next (s.windowExpire t b) :=
  congrArg Host.Outcome.next (whenRunning_of_running hs _)

end

theorem recordIs_of_some {s : State} {n : Nat} {r : HeadRecord} (h : s.record n = some r) (x : RecordState) :
    s.recordIs n x = decide (r.state = x) := by
  unfold State.recordIs
  rw [h]
  rfl

/-- A head whose record, if any, is not FORMING has none to change. -/
theorem recordIs_eq_false {s : State} {n : Nat} {x : RecordState} (h : ∀ r ∈ s.table.records, r.number = n → r.state ≠ x) :
    s.recordIs n x = false := by
  rw [Bool.eq_false_iff]
  intro his
  obtain ⟨r, hr, hx⟩ := recordIs_iff.mp his
  exact h r (record_mem hr) (record_number hr) hx

/-- Settles O22, by the unit's state and role. -/
theorem wMaxDeadlineBlocksTheBeam : Obligations.WMaxDeadlineBlocksTheBeam := by
  intro s t b h unit blocked leaves hs hdue
  have hdue : isDue s.now h.wMaxAt = true := by rw [hdue]; exact isDue_some.mpr rfl
  refine ⟨fun x a hgap => ?_, fun hcovered => ?_⟩
  · rw [exec_wMaxDeadline hs, wMaxExpire_of_gap hgap, if_pos hdue]
  · have hexec : exec (.wMaxDeadline t b) s = .next (s.enterBlocked t b h) := by
      rw [exec_wMaxDeadline hs, wMaxExpire_of_covered hcovered, if_pos hdue]
    simp only [leaves, hexec]
    refine ⟨fun hrole => congrArg _ (enterBlocked_none hrole), fun hrole hnone => congrArg _ ?_, fun r hr hrole hrecord hforming hdistinct =>
      congrArg _ ?_, fun hrole hdistinct => congrArg _ (enterBlocked_far hrole hdistinct)⟩
    · cases hrecord : h.record with
      | none => exact enterBlocked_near_without hrole hrecord
      | some n =>
        have hnot : blocked.recordIs n .forming = false :=
          recordIs_eq_false fun r hr hn => hnone r hr (by rw [hrecord, hn])
        rw [enterBlocked_near hrole hrecord]
        exact congrArg (State.testClose · t) (if_neg (by rw [show s.blockedBy t b = blocked from rfl, hnot]; decide))
    · have hrec : blocked.record r.number = some r := record_of_mem (s := blocked) hdistinct hr
      have his : blocked.recordIs r.number .forming = true := by rw [recordIs_of_some hrec]; simpa using hforming
      have hblock : blocked.blockRecord r.number = blocked.finishRecord r.number .blocked := if_pos his
      rw [enterBlocked_near hrole hrecord, show s.blockedBy t b = blocked from rfl, hblock, finishRecord_of_some hrec]
      rfl

/-! ### A head begins (R51, R52) -/

theorem notBefore_eq (x now : Time) : notBefore x now = if 0 < (x - now).toInt then x else now := by
  unfold notBefore isAfter signedDiff
  simp

theorem beamEdge_of_clear {s : State} {t : Track} {b : Beam} (h : ((s.heads.get t).get b).state = .clear) (a : Bool) (x : Time) :
    s.beamEdge t b a x = if a then s.beginHead t b x else s := by
  unfold State.beamEdge
  simp only [State.head, h]
  cases a <;> rfl

theorem updatePassage_of_open {s : State} {t : Track} {p : Passage} (h : s.passages.get t = some p) (f : Passage → Passage) :
    s.updatePassage t f = s.setPassages (s.passages.set t (some (f p))) := by
  unfold State.updatePassage PerTrack.modify
  rw [h]
  rfl

theorem recordHead_of_open {s : State} {t : Track} {p : Passage} (hp : s.passages.get t = some p) (b : Beam) (h : Head) :
    s.recordHead t b h = match (s.setPassages (s.passages.set t (some { p with heads := satSucc p.heads }))).allocate t p h.tLead with
      | some (n, u) => u.setHeadState t b (.covered { h with record := some n })
      | none => (s.setPassages (s.passages.set t (some { p with heads := satSucc p.heads }))).raise
          { kind := .tableFull, track := some t, item := .input (.beam b), time := s.now } := by
  unfold State.recordHead
  simp only [hp, updatePassage_of_open hp]
  rfl

/-- Settles O18, by the role of the unit. -/
theorem activeEdgeInClearBeginsAHead : Obligations.ActiveEdgeInClearBeginsAHead := by
  intro s t b stamp unit limit h covered expires hs hclear
  have hbegin : s.beamEdge t b true stamp =
      (if unit.role = .near then covered.recordHead t b h else covered).wMaxExpire t b := by
    have hhead : h = ⟨stamp, 1, some (notBefore (plus stamp (s.config t).wMax) s.now), false, none⟩ := by
      rw [notBefore_eq]
      rfl
    have hcovered : s.setHeadState t b (.covered h) = covered := rfl
    rw [beamEdge_of_clear hclear, if_pos rfl, State.beginHead, ← hhead, hcovered]
    simp only [show covered.head t b = { unit with state := .covered h } from head_setHead ..]
  refine ⟨fun hrole => ?_, fun p hrole hp => ?_⟩
  · show exec (.wMaxDeadline t b) covered = _
    rw [exec_wMaxDeadline (s := covered) hs, hbegin, if_neg hrole]
  intro counted
  refine ⟨fun n u halloc => ?_, fun halloc => ?_⟩
  · have hrec : covered.recordHead t b h = u.setHead t b { unit with state := .covered { h with record := some n } } := by
      rw [recordHead_of_open (s := covered) hp]
      have halloc' : (covered.setPassages (covered.passages.set t (some { p with heads := satSucc p.heads }))).allocate t p h.tLead =
          some (n, u) := halloc
      simp only [halloc']
      rw [setHeadState_eq, (allocate_only halloc).heads]
      exact congrArg (u.setHead t b) (congrArg (fun x : HeadUnit => { x with state := .covered { h with record := some n } })
        (head_setHead s t b { unit with state := .covered h }))
    show exec (.wMaxDeadline t b) _ = _
    have hrun : (u.setHead t b { unit with state := .covered { h with record := some n } }).Running :=
      (congrArg Clock.power (allocate_only halloc).clock).trans hs
    rw [exec_wMaxDeadline hrun, hbegin, if_pos hrole, hrec]
  · have hrec : covered.recordHead t b h = counted.raise
        { kind := .tableFull, track := some t, item := .input (.beam b), time := s.clock.tb } := by
      rw [recordHead_of_open (s := covered) hp]
      have halloc' : (covered.setPassages (covered.passages.set t (some { p with heads := satSucc p.heads }))).allocate t p h.tLead =
          none := halloc
      simp only [halloc']
      rfl
    show exec (.wMaxDeadline t b) _ = _
    rw [exec_wMaxDeadline (s := counted.raise _) hs, hbegin, if_pos hrole, hrec]

/-! ### Strips (R53 to R55, R59) -/

section

variable {s : State} {t : Track} {b : Beam} {h : Head}

theorem beamEdge_of_covered (hc : ((s.heads.get t).get b).state = .covered h) (a : Bool) (x : Time) :
    s.beamEdge t b a x = if a then s else s.endStrip t b h x := by
  unfold State.beamEdge
  simp only [State.head, hc]
  cases a <;> rfl

theorem beamEdge_of_gap {y w : Time} (hc : ((s.heads.get t).get b).state = .gap h y w) (a : Bool) (x : Time) :
    s.beamEdge t b a x = if a then s.mergeStrip t b h else s := by
  unfold State.beamEdge
  simp only [State.head, hc]
  cases a <;> rfl

theorem beamEdge_of_blocked (hc : ((s.heads.get t).get b).state = .blocked) (a : Bool) (x : Time) :
    s.beamEdge t b a x = if a then s else s.restoreBeam t b := by
  unfold State.beamEdge
  simp only [State.head, hc]
  cases a <;> rfl

theorem windowExpire_of_gap {x w : Time} (hgap : ((s.heads.get t).get b).state = .gap h x w) :
    s.windowExpire t b = if w = s.clock.tb then s.closeHead t b h x else s := by
  unfold State.windowExpire
  simp only [State.head, hgap, isDue_some]
  rfl

end

section

variable {s : State} {t : Track} {b : Beam} {h : Head}

theorem mergeStrip_of_limit (hlimit : h.limitPassed = true) : s.mergeStrip t b h = s.enterBlocked t b h := if_pos hlimit

theorem mergeStrip_without (hlimit : h.limitPassed = false) (hrecord : h.record = none) :
    s.mergeStrip t b h = s.setHeadState t b (.covered { h with strips := min 15 (h.strips + 1) }) := by
  rw [State.mergeStrip, if_neg (by simp [hlimit])]
  simp only [hrecord]

/-- A strip merged is one more of the head's and, while its record is FORMING, of the record's. -/
theorem mergeStrip_with (hlimit : h.limitPassed = false) {n : Nat} (hrecord : h.record = some n) (hs : s.DistinctNumbers) :
    s.mergeStrip t b h = (s.setHeadState t b (.covered { h with strips := min 15 (h.strips + 1) })).mapRecords fun r =>
      if r.number = n ∧ r.state = .forming then { r with strips := min 15 (h.strips + 1) } else r := by
  have hmerge : s.mergeStrip t b h =
      if s.recordIs n .forming then (s.setHeadState t b (.covered { h with strips := min 15 (h.strips + 1) })).updateRecord n
        fun r => { r with strips := min 15 (h.strips + 1) }
      else s.setHeadState t b (.covered { h with strips := min 15 (h.strips + 1) }) := by
    rw [State.mergeStrip, if_neg (by simp [hlimit])]
    simp only [hrecord]
    rfl
  rw [hmerge]
  split
  · rename_i hforming
    obtain ⟨r, hr, hx⟩ := recordIs_iff.mp hforming
    refine mapRecords_congr fun o ho => ?_
    by_cases hn : o.number = n
    · rw [if_pos hn, if_pos ⟨hn, by rw [eq_of_record hs hr ho hn, hx]⟩]
    · rw [if_neg hn, if_neg fun h => hn h.1]
  · rename_i hnot
    refine (mapRecords_id fun o ho => if_neg fun ⟨hn, hx⟩ => hnot ?_).symm
    exact recordIs_iff.mpr ⟨o, hn ▸ record_of_mem hs ho, hx⟩

end

theorem isDue_self (x : Time) : isDue x (some x) = true := by simp [isDue]

/-- Settles O19, by the unit's state and the edge. -/
theorem stripsMergeWithinTheWindow : Obligations.StripsMergeWithinTheWindow := by
  intro s t b stamp unit m g ends put hs
  refine ⟨fun h hcovered => ?_, fun h x a hgap => ?_, fun hblocked => ?_, fun hclear => ?_⟩
  · have hend : s.beamEdge t b false stamp =
        (put (.gap h stamp (if 0 < (ends - s.clock.tb).toInt then ends else s.clock.tb))).windowExpire t b := by
      rw [beamEdge_of_covered hcovered, if_neg Bool.false_ne_true, State.endStrip, notBefore_eq]
      rfl
    refine ⟨?_, fun hafter => ?_, fun hnot => ?_⟩
    · rw [beamEdge_of_covered hcovered, if_pos rfl]
    · have hne : ends ≠ s.clock.tb := by
        intro he
        simp [he] at hafter
      rw [hend, if_pos hafter, windowExpire_of_gap (h := h) (x := stamp) (w := ends)]
      · exact if_neg hne
      · exact congrArg HeadUnit.state (head_setHead s t b _)
    · rw [hend, if_neg hnot]
      exact exec_windowDeadline (s := put (.gap h stamp s.clock.tb)) hs t b
  · have hmerge : s.beamEdge t b true stamp = s.mergeStrip t b h := by rw [beamEdge_of_gap hgap, if_pos rfl]
    refine ⟨?_, fun hlimit hnone => ?_, fun n hlimit hrecord hdistinct => ?_, fun hlimit => ?_⟩
    · rw [beamEdge_of_gap hgap, if_neg Bool.false_ne_true]
    · rw [hmerge, mergeStrip_without hlimit (Option.eq_none_iff_forall_ne_some.mpr hnone)]
      rfl
    · rw [hmerge, mergeStrip_with hlimit hrecord hdistinct]
      rfl
    · rw [hmerge, mergeStrip_of_limit hlimit, exec_wMaxDeadline (s := put (.covered { h with wMaxAt := some s.clock.tb })) hs,
        wMaxExpire_of_covered (s := put (.covered { h with wMaxAt := some s.clock.tb })) (t := t) (b := b)
          (h := { h with wMaxAt := some s.clock.tb }) (congrArg HeadUnit.state (head_setHead s t b _))]
      exact congrArg _ ((if_pos (isDue_self _)).trans (enterBlocked_congr rfl _))
  · refine ⟨?_, ?_⟩
    · rw [beamEdge_of_blocked hblocked, if_pos rfl]
    · rw [beamEdge_of_blocked hblocked, if_neg Bool.false_ne_true]
      rfl
  · rw [beamEdge_of_clear hclear, if_neg Bool.false_ne_true]

/-! ### A FAR head closes (R56, R63 to R67) -/

/-- What makes a record a candidate for a far centre (R63). -/
theorem candidate_eq (r : HeadRecord) (t : Track) (passage : Nat) (far : Time) (tol : Nat) :
    r.candidate t passage far tol =
      if r.track = t ∧ r.passage = passage ∧ r.confirmation = .waiting ∧ ∃ e, r.expectedFar = some e ∧ (far - e).toInt.natAbs ≤ tol then
        some (far - r.expectedFar.getD 0).toInt
      else none := by
  unfold HeadRecord.candidate
  split
  · rename_i x hwaits hx
    simp [hwaits, hx, signedDiff]
  · rename_i hnot
    rw [if_neg]
    rintro ⟨-, -, hwaits, e, he, -⟩
    exact hnot e hwaits he

/-- The match is the oldest candidate (R63). -/
theorem findMatch_eq (t : Track) (passage : Nat) (far : Time) (tol : Nat) (l : List HeadRecord) :
    findMatch t passage far tol l = (l.find? fun r => decide (r.track = t ∧ r.passage = passage ∧ r.confirmation = .waiting ∧
      ∃ e, r.expectedFar = some e ∧ (far - e).toInt.natAbs ≤ tol)).map fun r => (r.number, (far - r.expectedFar.getD 0).toInt) := by
  induction l with
  | nil => rfl
  | cons r l ih =>
    rw [findMatch, candidate_eq]
    by_cases h : r.track = t ∧ r.passage = passage ∧ r.confirmation = .waiting ∧
        ∃ e, r.expectedFar = some e ∧ (far - e).toInt.natAbs ≤ tol
    · rw [if_pos h, List.find?_cons_of_pos (by simpa using h)]
      rfl
    · rw [if_neg h, List.find?_cons_of_neg (by simpa using h), ← ih]

section

variable {s u : State} {t : Track} {b : Beam} {h : Head} {x : Time}

/-- What the end of a head does, once its role's part is done: that part leaves the units alone. -/
theorem closeHead_of_none (hrole : ((s.heads.get t).get b).role = .none) :
    s.closeHead t b h x = (s.setHead t b ((s.heads.get t).get b).afterClear).testClose t := by
  unfold State.closeHead
  simp only [State.head, hrole]
  rfl

theorem closeHead_of_far (hrole : ((s.heads.get t).get b).role = .far)
    (heffect : (s.offerFar t b (headCentre h.tLead x)).settleOverdue t = u) (hheads : u.heads = s.heads) :
    s.closeHead t b h x = (u.setHead t b ((s.heads.get t).get b).afterClear).testClose t := by
  unfold State.closeHead
  simp only [State.head, hrole, heffect, hheads]
  rfl

theorem closeHead_of_near (hrole : ((s.heads.get t).get b).role = .near) (heffect : s.handOver t h x = u)
    (hheads : u.heads.get t = s.heads.get t) :
    s.closeHead t b h x = (u.setHead t b ((s.heads.get t).get b).afterClear).testClose t := by
  unfold State.closeHead
  simp only [State.head, hrole, heffect, hheads]
  rfl

end

/-- A unit in GAP has a head under way. -/
theorem forming_of_gap {u : HeadUnit} {h : Head} {x w : Time} (hgap : u.state = .gap h x w) : u.forming = true := by
  simp [HeadUnit.forming, hgap]

/-- A record that leaves WAITING while a head of its track is under way closes nothing (R41). -/
theorem leaveWaiting_of_forming {s : State} (hs : s.DistinctNumbers) {t : Track} {b : Beam}
    (hforming : ((s.heads.get t).get b).forming = true) (n : Nat) {f : HeadRecord → HeadRecord}
    (hnumber : ∀ r, (f r).number = r.number) (htrack : ∀ r, (f r).track = r.track) :
    s.leaveWaiting t n f = s.changesRecord n f := by
  rw [leaveWaiting_eq hs t n hnumber htrack]
  exact testClose_of_forming (b := b) ((changesRecord_only s n f).heads ▸ hforming)

/-- Settles O20, by the role of the unit and the oldest candidate. -/
theorem farHeadConfirmsTheOldestCandidate : Obligations.FarHeadConfirmsTheOldestCandidate := by
  intro s t b h x unit width far passage candidate residual leaves hs hgap
  have hexec : exec (.windowDeadline t b) s = .next (s.closeHead t b h x) := by
    rw [exec_windowDeadline hs, windowExpire_of_gap hgap, if_pos rfl]
  have hforming : ((s.heads.get t).get b).forming = true := forming_of_gap hgap
  have hmatch : findMatch t (s.passageNumber t) (headCentre h.tLead x) (s.config t).cTol s.table.records =
      (s.oldest candidate).map fun r => (r.number, (far - r.expectedFar.getD 0).toInt) := findMatch_eq ..
  simp only [leaves, hexec]
  refine ⟨fun hrole => congrArg _ (closeHead_of_none hrole), fun hrole hdistinct => ⟨fun hnone => congrArg _ ?_, fun r hr => congrArg _ ?_⟩⟩
  · have hraise : (s.raise { kind := .farUnmatched, track := some t, item := .input (.beam b), time := s.clock.tb }).heads = s.heads := rfl
    refine closeHead_of_far hrole ?_ ((missesOverdue_heads (b := b) (hraise ▸ hforming)).trans hraise)
    rw [State.offerFar, hmatch, hnone]
    exact settleOverdue_eq ((raise_only ..).sameNumbers.distinct hdistinct) t
  · have hheads := (changesRecord_only s r.number fun o =>
      { o with confirmation := .matched, residual := some (residual r), confirmAt := none, overdue := false }).heads
    refine closeHead_of_far hrole ?_ ((missesOverdue_heads (b := b) (hheads ▸ hforming)).trans hheads)
    rw [State.offerFar, hmatch, hr]
    simp only [Option.map_some]
    rw [leaveWaiting_of_forming hdistinct hforming r.number (f := fun o => o.matched _) (fun _ => rfl) fun _ => rfl]
    exact settleOverdue_eq ((changesRecord_numbers s r.number (f := fun o => o.matched _) fun _ => rfl).distinct hdistinct) t

end Sys2Proof.Machine
end

section
/-! PROOFS. A NEAR head that closes: its record measured, decided and planned (R60, R91 to R95). O21. -/

namespace Sys2Proof.Machine

theorem updateRecord_updateRecord (s : State) (n : Nat) {f : HeadRecord → HeadRecord} (hf : ∀ r, (f r).number = r.number)
    (g : HeadRecord → HeadRecord) : (s.updateRecord n f).updateRecord n g = s.updateRecord n fun r => g (f r) := by
  refine (mapRecords_mapRecords ..).trans (congrArg s.mapRecords (funext fun r => ?_))
  by_cases hn : r.number = n
  · simp [hn, hf]
  · simp [hn]

/-- A record replaced by one of its number. -/
theorem record_put {s : State} {n : Nat} {r r' : HeadRecord} (hr : s.record n = some r) (hn : r'.number = n) :
    (s.mapRecords fun o => if o.number = n then r' else o).record n = some r' := by
  have hput : (s.mapRecords fun o => if o.number = n then r' else o) = s.updateRecord n fun o => { r' with number := o.number } :=
    congrArg s.mapRecords (funext fun o => by
      by_cases ho : o.number = n
      · simp only [ho, if_true, ← hn]
      · simp only [if_neg ho])
  rw [hput, record_updateRecord s n (f := fun o => { r' with number := o.number }) fun _ => rfl, hr]
  simp only [Option.map_some, record_number hr, ← hn]

/-! ### What planning the stations leaves -/

/-- The units, the clock and each record's number, track, confirmation and deadline stay. -/
structure KeepsDeadlines (s u : State) : Prop where
  heads : u.heads = s.heads
  clock : u.clock = s.clock
  records : (u.table.records.map fun r => (r.number, r.track, r.confirmation, r.confirmAt)) =
    s.table.records.map fun r => (r.number, r.track, r.confirmation, r.confirmAt)

theorem KeepsDeadlines.refl (s : State) : KeepsDeadlines s s := ⟨rfl, rfl, rfl⟩

theorem KeepsDeadlines.trans {s u v : State} (h : KeepsDeadlines s u) (k : KeepsDeadlines u v) : KeepsDeadlines s v :=
  ⟨k.heads.trans h.heads, k.clock.trans h.clock, k.records.trans h.records⟩

theorem KeepsDeadlines.sameNumbers {s u : State} (h : KeepsDeadlines s u) : SameNumbers s u := by
  have hmap := congrArg (List.map Prod.fst) h.records
  rwa [List.map_map, List.map_map] at hmap

theorem KeepsDeadlines.record {s u : State} (h : KeepsDeadlines s u) (hs : s.DistinctNumbers) {n : Nat} {r : HeadRecord}
    (hr : s.record n = some r) :
    ∃ o, u.record n = some o ∧ o.track = r.track ∧ o.confirmation = r.confirmation ∧ o.confirmAt = r.confirmAt := by
  have hmem : (r.number, r.track, r.confirmation, r.confirmAt) ∈
      u.table.records.map fun r => (r.number, r.track, r.confirmation, r.confirmAt) :=
    h.records ▸ List.mem_map_of_mem (record_mem hr)
  obtain ⟨o, ho, heq⟩ := List.mem_map.mp hmem
  simp only [Prod.mk.injEq] at heq
  obtain ⟨hnumber, htrack, hconf, hat⟩ := heq
  refine ⟨o, ?_, htrack, hconf, hat⟩
  rw [← record_number hr, ← hnumber]
  exact record_of_mem (h.sameNumbers.distinct hs) ho

theorem updateRecord_keepsDeadlines (s : State) (n : Nat) {f : HeadRecord → HeadRecord}
    (hf : ∀ r, ((f r).number, (f r).track, (f r).confirmation, (f r).confirmAt) = (r.number, r.track, r.confirmation, r.confirmAt)) :
    KeepsDeadlines s (s.updateRecord n f) := by
  refine ⟨rfl, rfl, ?_⟩
  refine (List.map_map ..).trans (List.map_congr_left fun r _ => ?_)
  by_cases hn : r.number = n
  · simpa [hn] using hf r
  · simp [hn]

theorem applyPlan_keepsDeadlines (s : State) (t : Track) (n : Nat) (st : Station) (c : StationConfig) (p : StationPlan) :
    KeepsDeadlines s (s.applyPlan t n st c p) := by
  have hreserve : KeepsDeadlines s (if p.camera = .pending then s.reserve n st c p else s) := by
    split
    · exact ⟨rfl, rfl, rfl⟩
    · exact .refl s
  unfold State.applyPlan
  refine (hreserve.trans (updateRecord_keepsDeadlines _ n (f := fun r => { r with entries := r.entries ++ [p.entry st] }) fun _ => rfl)).trans ?_
  split
  · exact ⟨rfl, rfl, rfl⟩
  · split
    · exact ⟨rfl, rfl, rfl⟩
    · exact .refl _

theorem planStation_keepsDeadlines (t : Track) (snap : TrackSnapshot) (dir : Direction) (v : Nat) (x : Time) (n : Nat) (s : State)
    (st : Station) : KeepsDeadlines s (State.planStation t snap dir v x n s st) := by
  unfold State.planStation
  split
  · exact .refl s
  · exact applyPlan_keepsDeadlines ..

theorem planStations_keepsDeadlines (t : Track) (snap : TrackSnapshot) (dir : Direction) (v : Nat) (x : Time) (n : Nat) (s : State)
    (l : List Station) : KeepsDeadlines s (l.foldl (State.planStation t snap dir v x n) s) := by
  induction l generalizing s with
  | nil => exact .refl s
  | cons st l ih => exact (planStation_keepsDeadlines ..).trans (ih _)

/-! ### Deciding a record (R92) -/

section

variable {p : Passage} {c : TrackConfig} {w v : Nat}

theorem decideRecord_of_reversed (h : p.reversed = true) : decideRecord (some p) c w = (.abandoned, 0, 0) := if_pos h

theorem decideRecord_of_untimed (h : p.reversed = false) (hv : p.vEst = none) : decideRecord (some p) c w = (.untimed, 0, 0) := by
  simp [decideRecord, h, hv]

theorem decideRecord_of_estimate (h : p.reversed = false) (hv : p.vEst = some v) : decideRecord (some p) c w =
    if headLength w v < c.lMin ∨ c.lMax < headLength w v then (.spurious, headLength w v, v) else (.planned, headLength w v, v) := by
  simp [decideRecord, h, hv]

end

/-! ### Handing over (R60) -/

section

variable {s : State} {t : Track} {h : Head} {x : Time}

theorem handOver_without (hnone : ∀ r ∈ s.table.records, h.record = some r.number → r.state ≠ .forming) : s.handOver t h x = s := by
  unfold State.handOver
  cases hrecord : h.record with
  | none => rfl
  | some n => exact if_neg (by simp [recordIs_eq_false fun r hr hn => hnone r hr (hn ▸ hrecord)])

theorem handOver_of_forming {n : Nat} (hrecord : h.record = some n) (hforming : s.recordIs n .forming = true) :
    s.handOver t h x = (s.updateRecord n fun r => { r with tTrail := some x, strips := h.strips }).planHead t n h.tLead x := by
  unfold State.handOver
  simp only [hrecord]
  exact if_pos hforming

/-- A record decided other than PLANNED is final, and is reported as it then stands. -/
theorem planHead_of_final {n : Nat} {a : Time} {d : RecordState × Nat × Nat}
    (hdecide : decideRecord (s.passages.get t) (s.planSnapshot t).config (headWidth a x) = d) (hd : d.1 ≠ .planned) :
    s.planHead t n a x =
      (s.updateRecord n fun r => { r with width := headWidth a x, length := d.2.1, speed := d.2.2 }).finishRecord n d.1 := by
  subst hdecide
  exact if_neg hd

theorem planHead_of_planned {n : Nat} {a : Time} {d : RecordState × Nat × Nat}
    (hdecide : decideRecord (s.passages.get t) (s.planSnapshot t).config (headWidth a x) = d) (hd : d.1 = .planned) :
    s.planHead t n a x =
      (Station.all.foldl (State.planStation t (s.planSnapshot t) (((s.passages.get t).map (·.direction)).getD .a) d.2.2 (headCentre a x) n)
        (s.updateRecord n fun r => r.plannedWith (headWidth a x) d.2.1 d.2.2
          (plus (headCentre a x) (timeToGo ((s.planSnapshot t).config.xHB - (s.planSnapshot t).config.xHA) d.2.2))
          (notBefore (plus (plus (headCentre a x) (timeToGo ((s.planSnapshot t).config.xHB - (s.planSnapshot t).config.xHA) d.2.2))
            (s.config t).cTol) s.now))).afterPlanning n := by
  subst hdecide
  exact if_pos hd

end

/-- The settings in use of a track that is not OUT are those of its snapshot. -/
theorem config_of_snapshot {s : State} {t : Track} {snap : TrackSnapshot} (hsnap : (s.tracks.get t).snapshot = some snap)
    (hmode : s.mode t ≠ .out) : s.config t = snap.config := by
  unfold State.config
  rw [hsnap]
  cases hm : (s.tracks.get t).mode with
  | out => exact absurd hm hmode
  | live => rfl
  | test => rfl

/-- A confirmation deadline that is not now does nothing. -/
theorem confirmationDue_of_later {s : State} {n : Nat} {r : HeadRecord} {x : Time} (hr : s.record n = some r)
    (hat : r.confirmAt = some x) (hx : x ≠ s.clock.tb) : s.confirmationDue n = s := by
  unfold State.confirmationDue
  rw [hr]
  exact if_neg (by simp [isDue, hat, State.now, hx])

/-- A close of one track leaves the other's units, and a head under way keeps its track's passage open. -/
theorem testClose_heads {s : State} {t : Track} {b : Beam} (hforming : ((s.heads.get t).get b).forming = true) (k : Track) :
    (s.testClose k).heads.get t = s.heads.get t := by
  by_cases hk : k = t
  · rw [hk, testClose_of_forming hforming]
  · cases hp : s.passages.get k with
    | none => rw [testClose_of_idle hp]
    | some p =>
      rw [testClose_of_open hp]
      split
      · rw [closePassage_eq]
        exact PerTrack.get_set_ne _ _ hk
      · rfl

/-- While a head is under way, the confirmation deadlines of records leave the units of its track alone. -/
theorem confirmationExpire_heads {s : State} (hs : s.DistinctNumbers) {t : Track} {b : Beam}
    (hforming : ((s.heads.get t).get b).forming = true) (r : HeadRecord) : (s.confirmationExpire r).heads.get t = s.heads.get t := by
  unfold State.confirmationExpire
  split
  · rfl
  · rw [leaveWaiting_eq hs r.track r.number (f := HeadRecord.missed) (fun _ => rfl) fun _ => rfl]
    have hheads := (changesRecord_only s r.number HeadRecord.missed).heads
    rw [testClose_heads (b := b) (hheads ▸ hforming), hheads]

/-- Settles O21, by the record of the head and the decision of R92. -/
theorem nearHeadCloseDecidesItsRecord : Obligations.NearHeadCloseDecidesItsRecord := by
  intro s t b h x unit w mid leaves hs hgap hrole
  have hforming : ((s.heads.get t).get b).forming = true := forming_of_gap hgap
  have hleaves : ∀ u, s.handOver t h x = u → u.heads.get t = s.heads.get t → leaves u := fun u heffect hheads => by
    simp only [leaves]
    rw [exec_windowDeadline hs, windowExpire_of_gap hgap, if_pos rfl, closeHead_of_near hrole heffect hheads]
  refine ⟨fun hnone => hleaves s (handOver_without hnone) rfl, ?_⟩
  intro p snap r hp hsnap hmode hrecord hr hstate hdistinct shut put ends
  have hrec : s.record r.number = some r := record_of_mem hdistinct hr
  have hput : ∀ f : HeadRecord → HeadRecord, s.updateRecord r.number f = put (f r) := updateRecord_eq_put hdistinct hrec
  have hhand := handOver_of_forming (t := t) (x := x) hrecord (recordIs_iff.mpr ⟨r, hrec, hstate⟩)
  have hplan : (s.updateRecord r.number fun r => { r with tTrail := some x, strips := h.strips }).planSnapshot t = snap := by
    unfold State.planSnapshot
    rw [show ((s.updateRecord r.number fun r => { r with tTrail := some x, strips := h.strips }).tracks.get t).snapshot = some snap from hsnap]
    rfl
  have hends : ∀ state len v, decideRecord (some p) snap.config w = (state, len, v) → state ≠ .planned →
      ends { shut with state := state, length := len, speed := v } := by
    intro state len v hdecide hstate
    refine hleaves _ ?_ rfl
    rw [hhand, planHead_of_final (d := (state, len, v)) (by rw [hplan]; exact hp ▸ hdecide) hstate,
      finishRecord_of_some (r := { shut with length := len, speed := v })]
    · rw [updateRecord_updateRecord, updateRecord_updateRecord, hput]
      · rfl
      all_goals exact fun _ => rfl
    · rw [record_updateRecord, record_updateRecord, hrec]
      · rfl
      all_goals exact fun _ => rfl
  refine ⟨fun hrev => ?_, fun hrev hv => ?_, ?_⟩
  · exact hends _ _ _ (decideRecord_of_reversed hrev) (by decide)
  · exact hends _ _ _ (decideRecord_of_untimed hrev hv) (by decide)
  intro v hrev hv len far limit confirmAt filled
  have hdecide := decideRecord_of_estimate (c := snap.config) (w := w) hrev hv
  refine ⟨fun hout => ?_, fun hmin hmax => ?_⟩
  · exact hends _ _ _ (hdecide.trans (if_pos hout)) (by decide)
  have hin : ¬ (headLength w v < snap.config.lMin ∨ snap.config.lMax < headLength w v) := by
    rintro (hlow | hhigh)
    · exact absurd hmin (not_le.mpr hlow)
    · exact absurd hmax (not_le.mpr hhigh)
  have hconfig : ∀ o, (put o).config t = snap.config := fun _ => config_of_snapshot (s := s) hsnap hmode
  have hpassage : ∀ o, (put o).passages.get t = some p := fun _ => hp
  have hfilled : s.handOver t h x = filled.confirmationDue r.number := by
    rw [hhand, planHead_of_planned (d := (.planned, len, v)) (by rw [hplan]; exact hp ▸ hdecide.trans (if_neg hin)) rfl, hplan,
      updateRecord_updateRecord, hput, hput, hconfig, hpassage, notBefore_eq]
    · rfl
    · exact fun _ => rfl
  let planned : HeadRecord := { shut with
    state := .planned, length := len, speed := v, confirmation := .waiting, expectedFar := some far, confirmAt := some confirmAt }
  have hkeeps : KeepsDeadlines (put planned) filled := planStations_keepsDeadlines t snap p.direction v mid r.number (put planned) Station.all
  have hnumbers : SameNumbers s (put planned) := mapRecords_numbers fun o => by
    by_cases ho : o.number = r.number
    · simp [ho, planned, shut]
    · simp [ho]
  have hput_distinct : (put planned).DistinctNumbers := hnumbers.distinct hdistinct
  obtain ⟨o, ho, htrack, hwaits, hat⟩ := hkeeps.record hput_distinct (record_put hrec rfl)
  have htb : filled.clock.tb = s.clock.tb := congrArg Clock.tb hkeeps.clock
  have hrunning : filled.Running := (congrArg Clock.power hkeeps.clock).trans hs
  have hheads : filled.heads.get t = s.heads.get t := congrArg (PerTrack.get · t) hkeeps.heads
  refine ⟨fun hlater => ?_, fun hnow => ⟨filled.confirmationDue r.number, ?_, ?_⟩⟩
  · refine hleaves filled ?_ hheads
    rw [hfilled]
    exact confirmationDue_of_later ho hat (htb ▸ hlater)
  · exact congrArg Host.Outcome.next (whenRunning_of_running hrunning _)
  · refine hleaves _ hfilled ?_
    rw [confirmationDue_of_due ho hwaits (hat.trans (congrArg some (hnow.trans htb.symm)))]
    exact (confirmationExpire_heads (hkeeps.sameNumbers.distinct hput_distinct) (b := b) (hheads ▸ hforming) o).trans hheads

end Sys2Proof.Machine
end

section
/-! PROOFS. Station entries and removal without firing (R125, R129): what one station's, one record's and the whole removal change and
report. O30. -/

namespace Sys2Proof.Machine

/-! ### A record replaced -/

/-- The record of number `n` replaced by `r`. -/
def State.putRecord (s : State) (n : Nat) (r : HeadRecord) : State := s.mapRecords fun o => if o.number = n then r else o

section

variable {s : State} {n : Nat} {r : HeadRecord}

theorem putRecord_record {o : HeadRecord} (ho : s.record n = some o) (hn : r.number = n) : (s.putRecord n r).record n = some r :=
  record_put ho hn

theorem putRecord_numbers (hn : r.number = n) : SameNumbers s (s.putRecord n r) := mapRecords_numbers fun o => by
  split
  · rw [hn, ‹o.number = n›]
  · rfl

theorem putRecord_putRecord (hn : r.number = n) (r' : HeadRecord) : (s.putRecord n r).putRecord n r' = s.putRecord n r' := by
  refine (mapRecords_mapRecords ..).trans (mapRecords_congr fun o _ => ?_)
  rw [Function.comp_apply]
  by_cases ho : o.number = n
  · simp [ho, hn]
  · simp [ho]

theorem putRecord_self (hs : s.DistinctNumbers) (hr : s.record n = some r) : s.putRecord n r = s := mapRecords_id fun o ho => by
  split
  · exact (eq_of_record hs hr ho ‹_›).symm
  · rfl

theorem putRecord_record_ne {m : Nat} (hn : r.number = n) (hm : n ≠ m) : (s.putRecord n r).record m = s.record m := by
  have hfind : ∀ l : List HeadRecord, (l.map fun o => if o.number = n then r else o).find? (fun o => o.number == m) =
      l.find? fun o => o.number == m := fun l => by
    induction l with
    | nil => rfl
    | cons o l ih =>
      rw [List.map_cons, List.find?_cons, List.find?_cons, ih]
      by_cases ho : o.number = n
      · simp [ho, hn, beq_false_of_ne hm]
      · simp [ho]
  exact hfind s.table.records

theorem updateRecord_eq_putRecord (hs : s.DistinctNumbers) (hr : s.record n = some r) (f : HeadRecord → HeadRecord) :
    s.updateRecord n f = s.putRecord n (f r) := updateRecord_eq_put hs hr f

/-- The DONE test of a record (R79, R80). -/
theorem testDone_of_some (hs : s.DistinctNumbers) (hr : s.record n = some r) :
    s.testDone n = if r.isDone then (s.offerByTrack .record r.track (recordFinalNotice r.finished)).putRecord n r.finished else s := by
  have htest : s.testDone n = if r.isDone then s.finishRecord n .done else s := by
    unfold State.testDone
    rw [hr]
  rw [htest]
  split
  · rename_i hdone
    rw [finishRecord_of_some hr, updateRecord_eq_putRecord hs hr, finished_of_done hdone]
    rfl
  · rfl

theorem testDone_of_none (hr : s.record n = none) : s.testDone n = s := by
  unfold State.testDone
  rw [hr]

end

/-! ### One station entry -/

/-- The record with its entries of one station changed. -/
def HeadRecord.withEntry (r : HeadRecord) (st : Station) (f : StationEntry → StationEntry) : HeadRecord :=
  { r with entries := r.entries.map fun e => if e.station = st then f e else e }

/-- STATION_RESULT for a record's entry of a station, where the change `f` settles it (R125). -/
def State.tellsEntry (s : State) (r : HeadRecord) (st : Station) (holder : Option PortId) (f : StationEntry → StationEntry) : State :=
  match r.entryOf st with
  | none => s
  | some e =>
    if r.state = .planned ∧ e.settled = false ∧ (f e).settled = true then
      s.offerToHolder .result holder (stationResultNotice r.number (f e))
    else s

/-- RECORD_FINAL, where the record has become DONE. -/
def State.tellsDone (s : State) (r : HeadRecord) : State :=
  if r.state = .done then s.offerByTrack .record r.track (recordFinalNotice r) else s

/-- A change of the state that offering notices does not meet. -/
structure BesideOffers (g : State → State) : Prop where
  offer : ∀ s named n, (g s).offer named n = g (s.offer named n)
  bindings : ∀ s, (g s).bindings = s.bindings

theorem mapRecords_besideOffers (f : HeadRecord → HeadRecord) : BesideOffers fun s => s.mapRecords f := ⟨fun _ _ _ => rfl, fun _ => rfl⟩

theorem putRecord_besideOffers (n : Nat) (r : HeadRecord) : BesideOffers fun s => s.putRecord n r := mapRecords_besideOffers _

section

variable {s : State} {n : Nat} {r : HeadRecord} {st : Station} {f : StationEntry → StationEntry}

theorem entryOf_some {e : StationEntry} (h : r.entryOf st = some e) : e ∈ r.entries ∧ e.station = st :=
  ⟨List.mem_of_find?_eq_some h, by simpa using List.find?_some h⟩

theorem entryOf_none_iff : r.entryOf st = none ↔ ∀ e ∈ r.entries, e.station ≠ st := by
  simp [HeadRecord.entryOf]

theorem tellsEntry_of_none (h : r.entryOf st = none) (holder : Option PortId) : s.tellsEntry r st holder f = s := by
  unfold State.tellsEntry
  rw [h]

theorem tellsEntry_of_some {e : StationEntry} (h : r.entryOf st = some e) (holder : Option PortId) :
    s.tellsEntry r st holder f = if r.state = .planned ∧ e.settled = false ∧ (f e).settled = true then
      s.offerToHolder .result holder (stationResultNotice r.number (f e)) else s := by
  unfold State.tellsEntry
  rw [h]

theorem tellsEntry_only (s : State) (r : HeadRecord) (st : Station) (holder : Option PortId) (f : StationEntry → StationEntry) :
    OnlyPorts s (s.tellsEntry r st holder f) := by
  unfold State.tellsEntry
  split
  · exact .refl s
  · split
    · exact offerToHolder_only ..
    · exact .refl s

theorem tellsEntry_comm {g : State → State} (hg : BesideOffers g) (holder : Option PortId) :
    (g s).tellsEntry r st holder f = g (s.tellsEntry r st holder f) := by
  unfold State.tellsEntry
  split
  · rfl
  · split
    · exact hg.offer ..
    · rfl

/-- Only the changes of the station's own entries bear on what is told. -/
theorem tellsEntry_congr {r' : HeadRecord} {g : StationEntry → StationEntry} (hentry : r'.entryOf st = r.entryOf st)
    (hstate : r'.state = r.state) (hnumber : r'.number = r.number) (hg : ∀ e ∈ r.entries, e.station = st → g e = f e)
    (holder : Option PortId) : s.tellsEntry r' st holder g = s.tellsEntry r st holder f := by
  cases he : r.entryOf st with
  | none => rw [tellsEntry_of_none he, tellsEntry_of_none (hentry.trans he)]
  | some e =>
    obtain ⟨hmem, hst⟩ := entryOf_some he
    rw [tellsEntry_of_some he, tellsEntry_of_some (hentry.trans he), hstate, hnumber, hg e hmem hst]

theorem tellsDone_comm {g : State → State} (hg : BesideOffers g) : (g s).tellsDone r = g (s.tellsDone r) := by
  unfold State.tellsDone
  split
  · exact hg.offer ..
  · rfl

theorem tellsDone_of_not (h : r.state ≠ .done) : s.tellsDone r = s := if_neg h

theorem withEntry_congr {g : StationEntry → StationEntry} (hg : ∀ e ∈ r.entries, e.station = st → g e = f e) :
    r.withEntry st g = r.withEntry st f := by
  unfold HeadRecord.withEntry
  rw [List.map_congr_left fun e he => ?_]
  split
  · exact hg e he ‹_›
  · rfl

theorem withEntry_id (h : ∀ e ∈ r.entries, e.station = st → f e = e) : r.withEntry st f = r := by
  unfold HeadRecord.withEntry
  rw [List.map_congr_left (g := id) fun e he => ?_, List.map_id]
  split
  · exact h e he ‹_›
  · rfl

/-- A station entry of a PLANNED record changed, and told of where that settles it (R77, R125). -/
theorem updateEntry_of_planned (hs : s.DistinctNumbers) (hr : s.record n = some r) (hplanned : r.state = .planned)
    (st : Station) (holder : Option PortId) (f : StationEntry → StationEntry) :
    s.updateEntry n st holder f = (s.tellsEntry r st holder f).putRecord n (r.withEntry st f) := by
  obtain rfl := record_number hr
  unfold State.updateEntry
  rw [hr]
  dsimp only
  cases he : r.entryOf st with
  | none =>
    rw [tellsEntry_of_none he, withEntry_id fun e hmem hst => absurd hst (entryOf_none_iff.mp he e hmem), putRecord_self hs hr]
  | some e =>
    rw [tellsEntry_of_some he]
    dsimp only
    rw [if_pos hplanned, updateRecord_eq_putRecord hs hr]
    have hsettles : (r.state = .planned ∧ e.settled = false ∧ (f e).settled = true) ↔ (!e.settled && (f e).settled) = true := by
      simp [hplanned]
    simp only [hsettles]
    split <;> rfl

/-- A station entry of a PLANNED record changed, and the record tested for DONE. -/
theorem updateEntry_testDone (hs : s.DistinctNumbers) (hr : s.record n = some r) (hplanned : r.state = .planned)
    (st : Station) (holder : Option PortId) (f : StationEntry → StationEntry) :
    (s.updateEntry n st holder f).testDone n =
      ((s.tellsEntry r st holder f).tellsDone (r.withEntry st f).finished).putRecord n (r.withEntry st f).finished := by
  obtain rfl := record_number hr
  have honly := tellsEntry_only s r st holder f
  have hdistinct := honly.sameNumbers.distinct hs
  have hrecord : (s.tellsEntry r st holder f).record r.number = some r := by
    unfold State.record at hr ⊢
    rwa [honly.table]
  have hput := putRecord_record (r := r.withEntry st f) hrecord rfl
  have hnumbers := putRecord_numbers (s := s.tellsEntry r st holder f) (n := r.number) (r := r.withEntry st f) rfl
  rw [updateEntry_of_planned hs hr hplanned, testDone_of_some (hnumbers.distinct hdistinct) hput]
  split
  · rename_i hdone
    have hfinished := finished_of_done hdone
    have htold : (s.tellsEntry r st holder f).tellsDone (r.withEntry st f).finished =
        (s.tellsEntry r st holder f).offerByTrack .record r.track (recordFinalNotice (r.withEntry st f).finished) := by
      rw [State.tellsDone, if_pos (by rw [hfinished]), hfinished]
      rfl
    rw [htold]
    exact putRecord_putRecord (s := State.offerByTrack _ .record r.track (recordFinalNotice _)) (n := r.number)
      (r := r.withEntry st f) rfl _
  · rename_i hopen
    rw [finished_of_open (by simpa using hopen), tellsDone_of_not fun h => by simp [HeadRecord.withEntry, hplanned] at h]

theorem updateEntry_of_not_planned (h : ∀ r, s.record n = some r → r.state ≠ .planned) (st : Station) (holder : Option PortId)
    (f : StationEntry → StationEntry) : s.updateEntry n st holder f = s := by
  unfold State.updateEntry
  cases hr : s.record n with
  | none => rfl
  | some r =>
    dsimp only
    cases r.entryOf st with
    | none => rfl
    | some e => exact if_neg (h r hr)

theorem testDone_of_not_planned (h : ∀ r, s.record n = some r → r.state ≠ .planned) : s.testDone n = s := by
  cases hr : s.record n with
  | none => exact testDone_of_none hr
  | some r =>
    unfold State.testDone
    rw [hr]
    exact if_neg fun hdone => h r hr ((isDone_iff r).mp hdone).1

/-- Where the change leaves the station's entries, nothing is told. -/
theorem tellsEntry_id (h : ∀ e ∈ r.entries, e.station = st → f e = e) (holder : Option PortId) : s.tellsEntry r st holder f = s := by
  cases he : r.entryOf st with
  | none => exact tellsEntry_of_none he holder
  | some e =>
    obtain ⟨hmem, hst⟩ := entryOf_some he
    rw [tellsEntry_of_some he, h e hmem hst, if_neg]
    rintro ⟨-, hopen, hsettled⟩
    simp [hsettled] at hopen

end

/-! ### One station of a removal -/

/-- An entry among those removed serves the station entry of record `n`. -/
def servesStation (gone : List Entry) (n : Nat) (st : Station) : Bool := gone.any fun e => e.serves n st

theorem servesStation_iff {gone : List Entry} {n : Nat} {st : Station} :
    servesStation gone n st = true ↔ ∃ e ∈ gone, e.record = n ∧ e.station = st := by
  simp [servesStation, Entry.serves]

theorem without_of_settled {x : StationEntry} (h : x.settled = true) (gone : List Entry) (n : Nat) : x.without gone n = x := by
  obtain ⟨hcamera, hflash⟩ := (settled_iff x).mp h
  simp [StationEntry.without, hcamera, hflash]

theorem without_of_not_served {gone : List Entry} {n : Nat} {x : StationEntry} (h : servesStation gone n x.station = false) :
    x.without gone n = x := by
  have hnone : ∀ b, ¬ ∃ e ∈ gone, e.isCamera = b ∧ e.record = n ∧ e.station = x.station := fun b ⟨e, he, _, hn, hst⟩ => by
    simp [servesStation_iff.mpr ⟨e, he, hn, hst⟩] at h
  simp only [StationEntry.without, hnone true, hnone false, and_false, if_false]

theorem without_station (x : StationEntry) (gone : List Entry) (n : Nat) : (x.without gone n).station = x.station := rfl

/-- The cancelled update of R129, from the entries removed. -/
theorem cancelled_eq_without (gone : List Entry) (n : Nat) (x : StationEntry) :
    x.cancelled ((gone.filter fun e => e.serves n x.station).any Entry.isCamera)
      ((gone.filter fun e => e.serves n x.station).any fun e => !e.isCamera) = x.without gone n := by
  have hany : ∀ b : Bool, ((gone.filter fun e => e.serves n x.station).any fun e => e.isCamera == b) = true ↔
      ∃ e ∈ gone, e.isCamera = b ∧ e.record = n ∧ e.station = x.station := fun b => by
    simp only [List.any_eq_true, List.mem_filter, Entry.serves, Bool.and_eq_true, beq_iff_eq]
    exact ⟨fun ⟨e, ⟨he, hn, hst⟩, hb⟩ => ⟨e, he, hb, hn, hst⟩, fun ⟨e, he, hb, hn, hst⟩ => ⟨e, ⟨he, hn, hst⟩, hb⟩⟩
  have hcamera := hany true
  have hflash := hany false
  simp only [beq_true, beq_false] at hcamera hflash
  unfold StationEntry.cancelled StationEntry.without
  simp only [← hcamera, ← hflash, Bool.and_eq_true, beq_iff_eq, and_comm (b := x.camera = _), and_comm (b := x.flash = _)]

/-- A record at the removal of entries of one of its stations, with or without the DONE test that follows. -/
def HeadRecord.visited (gone : List Entry) (testsDone : Bool) (r : HeadRecord) (st : Station) : HeadRecord :=
  if r.state = .planned ∧ servesStation gone r.number st = true then
    if testsDone then (r.withEntry st fun x => x.without gone r.number).finished else r.withEntry st fun x => x.without gone r.number
  else r

section

variable {s : State} {n : Nat} {r : HeadRecord} {st : Station} {gone : List Entry} {lost : Option PortId} {d : Bool}

theorem cancelStation_of_not_served (h : servesStation gone n st = false) : s.cancelStation gone lost d n st = s := by
  unfold State.cancelStation
  refine if_pos ?_
  simpa [servesStation, List.filter_eq_nil_iff] using h

theorem cancelStation_of_served (h : servesStation gone n st = true) :
    s.cancelStation gone lost d n st =
      if d then (s.updateEntry n st (lost.or (s.bindings.get st)) (StationEntry.cancelled ((gone.filter fun e => e.serves n st).any Entry.isCamera)
        ((gone.filter fun e => e.serves n st).any fun e => !e.isCamera))).testDone n
      else s.updateEntry n st (lost.or (s.bindings.get st)) (StationEntry.cancelled ((gone.filter fun e => e.serves n st).any Entry.isCamera)
        ((gone.filter fun e => e.serves n st).any fun e => !e.isCamera)) := by
  unfold State.cancelStation
  refine if_neg ?_
  simpa [servesStation, List.filter_eq_nil_iff] using h

theorem cancelStation_of_not_planned (h : ∀ r, s.record n = some r → r.state ≠ .planned) (st : Station) :
    s.cancelStation gone lost d n st = s := by
  cases hserved : servesStation gone n st with
  | false => exact cancelStation_of_not_served hserved
  | true => rw [cancelStation_of_served hserved, updateEntry_of_not_planned h, testDone_of_not_planned h, ite_self]

theorem visited_of_not_planned (h : r.state ≠ .planned) : r.visited gone d st = r := if_neg fun k => h k.1

theorem visited_of_not_served (h : servesStation gone r.number st = false) : r.visited gone d st = r := if_neg (by simp [h])

theorem visited_number : (r.visited gone d st).number = r.number := by
  unfold HeadRecord.visited
  split
  · split
    · exact finished_number _
    · rfl
  · rfl

/-- The removal at one station of a PLANNED record (R129). -/
theorem cancelStation_of_planned (hs : s.DistinctNumbers) (hr : s.record n = some r) (hplanned : r.state = .planned) (st : Station) :
    s.cancelStation gone lost d n st =
      ((s.tellsEntry r st (lost.or (s.bindings.get st)) fun x => x.without gone r.number).tellsDone (r.visited gone d st)).putRecord n
        (r.visited gone d st) := by
  obtain rfl := record_number hr
  cases hserved : servesStation gone r.number st with
  | false =>
    have hsame : ∀ e ∈ r.entries, e.station = st → e.without gone r.number = e := fun e _ hst => without_of_not_served (hst ▸ hserved)
    rw [cancelStation_of_not_served hserved, visited_of_not_served hserved, tellsEntry_id hsame, tellsDone_of_not (by simp [hplanned]),
      putRecord_self hs hr]
  | true =>
    have hsame : ∀ e ∈ r.entries, e.station = st → e.cancelled ((gone.filter fun e => e.serves r.number st).any Entry.isCamera)
        ((gone.filter fun e => e.serves r.number st).any fun e => !e.isCamera) = e.without gone r.number := fun e _ hst => by
      subst hst
      exact cancelled_eq_without gone r.number e
    have hvisited : r.visited gone d st = if d then (r.withEntry st fun x => x.without gone r.number).finished
        else r.withEntry st fun x => x.without gone r.number := if_pos ⟨hplanned, hserved⟩
    rw [cancelStation_of_served hserved, updateEntry_of_planned hs hr hplanned, withEntry_congr hsame,
      tellsEntry_congr (r := r) (f := fun x => x.without gone r.number) rfl rfl rfl hsame, hvisited]
    cases d with
    | false =>
      have hopen : (r.withEntry st fun x => x.without gone r.number).state ≠ .done := fun h => by simp [HeadRecord.withEntry, hplanned] at h
      simp only [Bool.false_eq_true, if_false, tellsDone_of_not hopen]
    | true =>
      rw [← updateEntry_of_planned hs hr hplanned]
      exact updateEntry_testDone hs hr hplanned st _ _

theorem visited_state (h : r.state = .planned) : (r.visited gone d st).state = .planned ∨ (r.visited gone d st).state = .done := by
  unfold HeadRecord.visited
  split
  · split
    · cases hdone : (r.withEntry st fun x => x.without gone r.number).isDone with
      | true => exact .inr (by rw [finished_of_done hdone])
      | false => exact .inl (by rw [finished_of_open hdone]; exact h)
    · exact .inl h
  · exact .inl h

/-- Visiting a station leaves the entries of the others. -/
theorem visited_entryOf {k : Station} (hk : st ≠ k) : (r.visited gone d st).entryOf k = r.entryOf k := by
  have hwith : (r.withEntry st fun x => x.without gone r.number).entryOf k = r.entryOf k := by
    unfold HeadRecord.entryOf HeadRecord.withEntry
    induction r.entries with
    | nil => rfl
    | cons e l ih =>
      rw [List.map_cons, List.find?_cons, List.find?_cons, ih]
      by_cases he : e.station = st
      · simp [he, beq_false_of_ne hk, without_station]
      · simp [he]
  unfold HeadRecord.visited
  split
  · split
    · rw [← hwith]
      unfold HeadRecord.finished
      split <;> rfl
    · exact hwith
  · rfl

/-- A record found DONE at a station has every other entry settled. -/
theorem entry_settled_of_visited_done (hplanned : r.state = .planned) (hdone : (r.visited gone d st).state = .done) {e : StationEntry}
    (he : e ∈ r.entries) (hst : e.station ≠ st) : e.settled = true := by
  unfold HeadRecord.visited at hdone
  split at hdone
  · split at hdone
    · cases hd : (r.withEntry st fun x => x.without gone r.number).isDone with
      | true =>
        refine (settled_iff e).mpr (((isDone_iff _).mp hd).2.2 e ?_)
        exact List.mem_map.mpr ⟨e, he, if_neg hst⟩
      | false =>
        rw [finished_of_open hd] at hdone
        exact absurd (hplanned.symm.trans hdone) (by decide)
    · exact absurd (hplanned.symm.trans hdone) (by decide)
  · exact absurd (hplanned.symm.trans hdone) (by decide)

end

/-! ### Every station of one record -/

/-- What is told of a record's entries of the stations `l`, as entries leave the list. -/
def State.tellsEntries (s : State) (gone : List Entry) (lost : Option PortId) (r : HeadRecord) (l : List Station) : State :=
  l.foldl (fun u st => u.tellsEntry r st (lost.or (u.bindings.get st)) fun x => x.without gone r.number) s

section

variable {s : State} {n : Nat} {r : HeadRecord} {gone : List Entry} {lost : Option PortId} {d : Bool} {l : List Station}

theorem tellsEntries_only (s : State) (gone : List Entry) (lost : Option PortId) (r : HeadRecord) (l : List Station) :
    OnlyPorts s (s.tellsEntries gone lost r l) := by
  induction l generalizing s with
  | nil => exact .refl s
  | cons st l ih => exact (tellsEntry_only ..).trans (ih _)

theorem tellsEntries_comm {g : State → State} (hg : BesideOffers g) :
    (g s).tellsEntries gone lost r l = g (s.tellsEntries gone lost r l) :=
  List.foldl_hom g fun u st => by rw [hg.bindings, tellsEntry_comm hg]

theorem tellsEntries_congr {r' : HeadRecord} (hentry : ∀ st ∈ l, r'.entryOf st = r.entryOf st) (hstate : r'.state = r.state)
    (hnumber : r'.number = r.number) : s.tellsEntries gone lost r' l = s.tellsEntries gone lost r l := by
  unfold State.tellsEntries
  refine List.foldl_ext _ _ _ fun u st hst => ?_
  rw [hnumber]
  exact tellsEntry_congr (hentry st hst) hstate hnumber (fun _ _ _ => rfl) _

theorem tellsEntries_id (h : ∀ st ∈ l, ∀ e ∈ r.entries, e.station = st → e.without gone r.number = e) :
    s.tellsEntries gone lost r l = s := by
  induction l generalizing s with
  | nil => rfl
  | cons st l ih =>
    unfold State.tellsEntries at ih ⊢
    rw [List.foldl_cons, tellsEntry_id (h st List.mem_cons_self)]
    exact ih fun k hk => h k (List.mem_cons_of_mem _ hk)

theorem visits_of_not_planned (h : r.state ≠ .planned) : l.foldl (HeadRecord.visited gone d) r = r := by
  induction l with
  | nil => rfl
  | cons st l ih => rw [List.foldl_cons, visited_of_not_planned h, ih]

theorem cancelStations_of_not_planned (h : ∀ r, s.record n = some r → r.state ≠ .planned) :
    l.foldl (fun u st => u.cancelStation gone lost d n st) s = s := by
  induction l with
  | nil => rfl
  | cons st l ih => rw [List.foldl_cons, cancelStation_of_not_planned h, ih]

/-- The removal at the stations `l` of a PLANNED record. -/
theorem cancelStations_of_planned (hl : l.Nodup) (hs : s.DistinctNumbers) (hr : s.record n = some r) (hplanned : r.state = .planned) :
    l.foldl (fun u st => u.cancelStation gone lost d n st) s =
      ((s.tellsEntries gone lost r l).tellsDone (l.foldl (HeadRecord.visited gone d) r)).putRecord n (l.foldl (HeadRecord.visited gone d) r) := by
  induction l generalizing s r with
  | nil =>
    have hopen : r.state ≠ .done := by simp [hplanned]
    simp only [List.foldl_nil, tellsDone_of_not hopen]
    exact (putRecord_self hs hr).symm
  | cons st l ih =>
    obtain ⟨hst, hl⟩ := List.nodup_cons.mp hl
    have hn := record_number hr
    let v := r.visited gone d st
    let told := s.tellsEntry r st (lost.or (s.bindings.get st)) fun x => x.without gone r.number
    have hv : v.number = n := visited_number.trans hn
    have honly : OnlyPorts s told := tellsEntry_only ..
    have hrecord : told.record n = some r := by
      unfold State.record at hr ⊢
      rwa [honly.table]
    have hentry : ∀ k ∈ l, v.entryOf k = r.entryOf k := fun k hk => visited_entryOf fun h => hst (h ▸ hk)
    rw [List.foldl_cons, List.foldl_cons, cancelStation_of_planned hs hr hplanned]
    change List.foldl _ ((told.tellsDone v).putRecord n v) l = ((told.tellsEntries gone lost r l).tellsDone (l.foldl _ v)).putRecord n (l.foldl _ v)
    rcases visited_state (gone := gone) (d := d) (st := st) hplanned with hopen | hdone
    · have hdistinct := (putRecord_numbers hv).distinct (honly.sameNumbers.distinct hs)
      rw [tellsDone_of_not (r := v) (by simp [v, hopen]), ih hl hdistinct (putRecord_record hrecord hv) hopen,
        tellsEntries_congr hentry (hopen.trans hplanned.symm) visited_number, tellsEntries_comm (putRecord_besideOffers n v),
        tellsDone_comm (putRecord_besideOffers n v),
        putRecord_putRecord hv]
    · have hlast : v.state ≠ .planned := fun h => absurd (hdone.symm.trans h) (by decide)
      have hsettled : ∀ k ∈ l, ∀ e ∈ r.entries, e.station = k → e.without gone r.number = e := fun k hk e he hek =>
        without_of_settled (entry_settled_of_visited_done hplanned hdone he fun h => hst ((h.symm.trans hek) ▸ hk)) ..
      rw [tellsEntries_id hsettled, visits_of_not_planned hlast]
      refine cancelStations_of_not_planned fun o ho => ?_
      have hput : ((told.tellsDone v).putRecord n v).record n = some v := putRecord_record (r := v) (o := r) ?_ hv
      · rwa [Option.some.inj (ho.symm.trans hput)]
      · unfold State.tellsDone
        split
        · exact hrecord
        · exact hrecord

end

/-! ### A record after every station -/

/-- The record with its entries of the stations `l` without the entries gone. -/
def HeadRecord.withoutAt (gone : List Entry) (l : List Station) (r : HeadRecord) : HeadRecord :=
  { r with entries := r.entries.map fun x => if x.station ∈ l then x.without gone r.number else x }

/-- The DONE test, where it follows. -/
def HeadRecord.tested (r : HeadRecord) (testsDone : Bool) : HeadRecord := if testsDone then r.finished else r

section

variable {r : HeadRecord} {gone : List Entry} {d : Bool} {l : List Station} {st : Station}

theorem withoutAt_of_not_served (h : ∀ k ∈ l, servesStation gone r.number k = false) : r.withoutAt gone l = r := by
  unfold HeadRecord.withoutAt
  rw [List.map_congr_left (g := id) fun x _ => ?_, List.map_id]
  split
  · exact without_of_not_served (h _ ‹_›)
  · rfl

theorem withoutAt_append (hst : st ∉ l) :
    (r.withoutAt gone l).withEntry st (fun x => x.without gone r.number) = r.withoutAt gone (l ++ [st]) := by
  unfold HeadRecord.withEntry HeadRecord.withoutAt
  simp only [List.map_map]
  congr 1
  refine List.map_congr_left fun x _ => ?_
  by_cases hx : x.station = st
  · simp [hx, hst]
  · by_cases hl : x.station ∈ l <;> simp [hx, hl, without_station]

theorem visited_of_served (hplanned : r.state = .planned) (h : servesStation gone r.number st = true) :
    r.visited gone d st = (r.withEntry st fun x => x.without gone r.number).tested d := if_pos ⟨hplanned, h⟩

/-- A record found DONE is not changed by what is removed after. -/
theorem withEntry_of_done (h : r.isDone = true) (st : Station) (n : Nat) : r.withEntry st (fun x => x.without gone n) = r :=
  withEntry_id fun e he _ => without_of_settled ((settled_iff e).mpr (((isDone_iff r).mp h).2.2 e he)) gone n

theorem visited_tested (hplanned : r.state = .planned) (h : servesStation gone r.number st = true) :
    (r.tested d).visited gone d st = (r.withEntry st fun x => x.without gone r.number).tested d := by
  cases d with
  | false => exact visited_of_served hplanned h
  | true =>
    cases hdone : r.isDone with
    | true =>
      rw [withEntry_of_done hdone, visited_of_not_planned]
      simp [HeadRecord.tested, finished_of_done hdone]
    | false =>
      rw [HeadRecord.tested, if_pos rfl, finished_of_open hdone]
      exact visited_of_served hplanned h

theorem tested_number : (r.tested d).number = r.number := by
  unfold HeadRecord.tested
  split
  · exact finished_number r
  · rfl

/-- A PLANNED record after the removal at the stations `l`, one after the other. -/
theorem visits_of_planned (hplanned : r.state = .planned) (hl : l.Nodup) :
    l.foldl (HeadRecord.visited gone d) r =
      if l.any (servesStation gone r.number) then (r.withoutAt gone l).tested d else r := by
  induction l using List.reverseRecOn with
  | nil => rfl
  | append_singleton l st ih =>
    obtain ⟨hl, -, hdisjoint⟩ := List.nodup_append.mp hl
    have hst : st ∉ l := fun h => hdisjoint st h st List.mem_cons_self rfl
    rw [List.foldl_append, List.foldl_cons, List.foldl_nil, ih hl, List.any_append, ← withoutAt_append hst]
    have hplanned' : (r.withoutAt gone l).state = .planned := hplanned
    cases hany : l.any (servesStation gone r.number) with
    | false =>
      have hnone := withoutAt_of_not_served (r := r) (gone := gone) (l := l) fun k hk => by simpa using List.any_eq_false.mp hany k hk
      rw [hnone]
      cases hserved : servesStation gone r.number st with
      | false => simp [hserved, visited_of_not_served hserved]
      | true => simp [hserved, visited_of_served hplanned hserved]
    | true =>
      cases hserved : servesStation gone r.number st with
      | false =>
        have hsame : (r.withoutAt gone l).withEntry st (fun x => x.without gone r.number) = r.withoutAt gone l :=
          withEntry_id fun x _ hx => without_of_not_served (hx ▸ hserved)
        simp only [if_true, Bool.true_or, hsame]
        exact visited_of_not_served (tested_number.symm ▸ hserved)
      | true =>
        simp only [if_true, Bool.true_or]
        exact visited_tested hplanned' hserved

/-- Every entry is of one of the eight stations. -/
theorem withoutAt_all (hplanned : r.state = .planned) : r.withoutAt gone Station.all = r.without gone := by
  simp [HeadRecord.withoutAt, HeadRecord.without, hplanned, station_mem_all]

theorem any_servesStation (gone : List Entry) (n : Nat) :
    (Station.all.any (servesStation gone n)) = gone.any fun e => e.record == n := by
  rw [Bool.eq_iff_iff]
  simp only [List.any_eq_true, servesStation_iff, beq_iff_eq]
  exact ⟨fun ⟨_, _, e, he, hn, _⟩ => ⟨e, he, hn⟩, fun ⟨e, he, hn⟩ => ⟨e.station, station_mem_all _, e, he, hn, rfl⟩⟩

end

/-- A removal touches the record: it is PLANNED, and an entry of it is among those gone. -/
def HeadRecord.touched (gone : List Entry) (r : HeadRecord) : Bool := decide (r.state = .planned) && gone.any fun e => e.record == r.number

/-- A record after a removal, with or without the DONE test (R129, R79). -/
def HeadRecord.removed (gone : List Entry) (testsDone : Bool) (r : HeadRecord) : HeadRecord :=
  if r.touched gone then (r.without gone).tested testsDone else r

theorem station_all_nodup : Station.all.Nodup := by decide

section

variable {s : State} {n : Nat} {r : HeadRecord} {gone : List Entry} {lost : Option PortId} {d : Bool}

theorem tellsEntries_all : s.tellsEntries gone lost r Station.all = s.tellsResults gone lost r := by
  unfold State.tellsEntries State.tellsResults
  refine List.foldl_ext _ _ _ fun u st _ => ?_
  unfold State.tellsEntry HeadRecord.entryOf
  cases r.entries.find? fun x => x.station == st <;> rfl

theorem visits_all : Station.all.foldl (HeadRecord.visited gone d) r = r.removed gone d := by
  unfold HeadRecord.removed HeadRecord.touched
  by_cases hplanned : r.state = .planned
  · rw [visits_of_planned hplanned station_all_nodup, any_servesStation, withoutAt_all hplanned]
    simp [hplanned]
  · rw [visits_of_not_planned hplanned]
    simp [hplanned]

theorem not_served_of_not_touched (hplanned : r.state = .planned) (h : r.touched gone = false) (st : Station) :
    servesStation gone r.number st = false := by
  have hany : (gone.any fun e => e.record == r.number) = false := by simpa [HeadRecord.touched, hplanned] using h
  simpa using List.any_eq_false.mp ((any_servesStation gone r.number).trans hany) st (station_mem_all st)

theorem without_of_not_touched (h : r.touched gone = false) : r.without gone = r := by
  by_cases hplanned : r.state = .planned
  · rw [← withoutAt_all hplanned, withoutAt_of_not_served fun st _ => not_served_of_not_touched hplanned h st]
  · exact if_neg hplanned

theorem tellsEntries_of_not_planned (h : r.state ≠ .planned) (l : List Station) : s.tellsEntries gone lost r l = s := by
  induction l with
  | nil => rfl
  | cons st l ih =>
    have hnone : (s.tellsEntry r st (lost.or (s.bindings.get st)) fun x => x.without gone r.number) = s := by
      cases he : r.entryOf st with
      | none => exact tellsEntry_of_none he _
      | some e => exact (tellsEntry_of_some he _).trans (if_neg fun k => h k.1)
    unfold State.tellsEntries at ih ⊢
    rw [List.foldl_cons, hnone, ih]

theorem tellsResults_of_not_touched (h : r.touched gone = false) : s.tellsResults gone lost r = s := by
  rw [← tellsEntries_all]
  by_cases hplanned : r.state = .planned
  · exact tellsEntries_id fun st _ e _ hst => without_of_not_served (hst ▸ not_served_of_not_touched hplanned h st)
  · exact tellsEntries_of_not_planned hplanned _

/-- The removal at one record (R129): what it tells, and the record after. -/
theorem cancelStations_all (hs : s.DistinctNumbers) (hr : s.record n = some r) :
    Station.all.foldl (fun u st => u.cancelStation gone lost d n st) s =
      (if r.touched gone then (s.tellsResults gone lost r).tellsDone (r.removed gone d) else s).putRecord n (r.removed gone d) := by
  by_cases hplanned : r.state = .planned
  · rw [cancelStations_of_planned station_all_nodup hs hr hplanned, visits_all, tellsEntries_all]
    split
    · rfl
    · rename_i hnot
      have hsame : r.removed gone d = r := if_neg hnot
      rw [hsame, tellsResults_of_not_touched (by simpa using hnot), tellsDone_of_not (by simp [hplanned])]
  · have hnot : r.touched gone = false := by simp [HeadRecord.touched, hplanned]
    have hsame : r.removed gone d = r := if_neg (by simp [hnot])
    rw [hsame, hnot, if_neg Bool.false_ne_true, putRecord_self hs hr]
    refine cancelStations_of_not_planned fun o ho => ?_
    rwa [Option.some.inj (ho.symm.trans hr)]

theorem removed_number : (r.removed gone d).number = r.number := by
  unfold HeadRecord.removed
  split
  · rw [tested_number]
    unfold HeadRecord.without
    split <;> rfl
  · rfl

end

/-! ### Every record -/

/-- Records changed one after another, each told of as it was: the tellings, and then the changes at once. `ok` is what a record's change
needs of the state, and the changes of the others keep. -/
theorem foldl_putRecord {step : State → Nat → State} {tell : State → HeadRecord → State} {after : HeadRecord → HeadRecord}
    {ok : State → HeadRecord → Prop} (hok : ∀ u r o, o.number ≠ r.number → ok u o → ok ((tell u r).putRecord r.number (after r)) o)
    (hstep : ∀ u r, u.DistinctNumbers → u.record r.number = some r → ok u r → step u r.number = (tell u r).putRecord r.number (after r))
    (hafter : ∀ r, (after r).number = r.number) (htable : ∀ u r, (tell u r).table = u.table)
    (hcomm : ∀ u r n o, tell (u.putRecord n o) r = (tell u r).putRecord n o)
    (l : List HeadRecord) (s : State) (hs : s.DistinctNumbers) (hl : (l.map (·.number)).Nodup)
    (hmem : ∀ r ∈ l, s.record r.number = some r ∧ ok s r) :
    (l.map (·.number)).foldl step s =
      (l.foldl tell s).mapRecords fun o => if o.number ∈ l.map (·.number) then after o else o := by
  have htables : ∀ (l : List HeadRecord) (u : State), (l.foldl tell u).table = u.table := fun l => by
    induction l with
    | nil => exact fun _ => rfl
    | cons r l ih => exact fun u => (ih _).trans (htable u r)
  induction l generalizing s with
  | nil => exact (mapRecords_id fun o _ => by simp).symm
  | cons r l ih =>
    obtain ⟨hr, hl⟩ := List.nodup_cons.mp hl
    obtain ⟨hrec, hrok⟩ := hmem r List.mem_cons_self
    have hsame : SameNumbers s (tell s r) := by rw [SameNumbers, htable]
    have hrecord : ∀ m, (tell s r).record m = s.record m := fun m => by
      unfold State.record
      rw [htable]
    have hother : ∀ o ∈ l, ((tell s r).putRecord r.number (after r)).record o.number = some o ∧
        ok ((tell s r).putRecord r.number (after r)) o := fun o ho => by
      obtain ⟨horec, ho_ok⟩ := hmem o (List.mem_cons_of_mem _ ho)
      have hne : o.number ≠ r.number := fun h => hr (List.mem_map.mpr ⟨o, ho, h⟩)
      rw [putRecord_record_ne (hafter r) hne.symm, hrecord]
      exact ⟨horec, hok s r o hne ho_ok⟩
    have hput : l.foldl tell ((tell s r).putRecord r.number (after r)) = (l.foldl tell (tell s r)).putRecord r.number (after r) :=
      List.foldl_hom (fun u : State => u.putRecord r.number (after r)) fun u o => hcomm u o r.number (after r)
    rw [List.map_cons, List.foldl_cons, hstep s r hs hrec hrok, ih _ ((putRecord_numbers (hafter r)).distinct (hsame.distinct hs)) hl hother,
      hput, List.foldl_cons]
    refine (mapRecords_mapRecords ..).trans (mapRecords_congr fun o ho => ?_)
    rw [htables, htable] at ho
    rw [Function.comp_apply]
    by_cases hn : o.number = r.number
    · obtain rfl := eq_of_record hs hrec ho hn
      rw [if_pos rfl, if_neg (by rwa [hafter]), if_pos (List.mem_cons_self)]
    · simp only [List.mem_cons, hn, false_or, if_false]

section

variable {s : State} {gone : List Entry} {lost : Option PortId} {d : Bool}

theorem tellsResults_comm {g : State → State} (hg : BesideOffers g) (r : HeadRecord) :
    (g s).tellsResults gone lost r = g (s.tellsResults gone lost r) := by
  rw [← tellsEntries_all, ← tellsEntries_all, tellsEntries_comm hg]

theorem tellsResults_only (s : State) (gone : List Entry) (lost : Option PortId) (r : HeadRecord) :
    OnlyPorts s (s.tellsResults gone lost r) := by
  rw [← tellsEntries_all]
  exact tellsEntries_only ..

theorem tellsDone_only (s : State) (r : HeadRecord) : OnlyPorts s (s.tellsDone r) := by
  unfold State.tellsDone
  split
  · exact offerByTrack_only ..
  · exact .refl s

/-- The whole removal (R129): what it tells, record by record, and the records after. -/
theorem removeEntries_eq (hs : s.DistinctNumbers) (sel : Entry → Bool) (lost : Option PortId) (d : Bool) :
    s.removeEntries sel lost d =
      ((s.table.records.filter (HeadRecord.touched (s.triggers.filter sel))).foldl
        (fun u r => (u.tellsResults (s.triggers.filter sel) lost r).tellsDone (r.removed (s.triggers.filter sel) d))
        ((s.setTriggers (s.triggers.filter fun e => !sel e)).setUnits (releaseBookings (s.triggers.filter sel) s.units))).mapRecords
          (HeadRecord.removed (s.triggers.filter sel) d) := by
  let gone := s.triggers.filter sel
  let tell (u : State) (r : HeadRecord) : State := if r.touched gone then (u.tellsResults gone lost r).tellsDone (r.removed gone d) else u
  have hmain := foldl_putRecord (step := fun s n => Station.all.foldl (fun s st => s.cancelStation gone lost d n st) s) (tell := tell)
    (after := HeadRecord.removed gone d) (ok := fun _ _ => True) (fun _ _ _ _ _ => trivial) (fun u r hu hr _ => cancelStations_all hu hr) (fun r => removed_number)
    (fun u r => by
      simp only [tell]
      split
      · exact ((tellsResults_only ..).trans (tellsDone_only ..)).table
      · rfl)
    (fun u r n o => by
      simp only [tell]
      split
      · rw [tellsResults_comm (putRecord_besideOffers n o), tellsDone_comm (putRecord_besideOffers n o)]
      · rfl)
    s.table.records ((s.setTriggers (s.triggers.filter fun e => !sel e)).setUnits (releaseBookings gone s.units)) hs hs
    (fun r hr => ⟨record_of_mem hs hr, trivial⟩)
  refine hmain.trans ?_
  rw [List.foldl_filter]
  refine mapRecords_congr fun o ho => if_pos ?_
  have htable := (foldl_keeps OnlyPorts.refl (fun _ _ _ => OnlyPorts.trans)
    (fun u r => (tellsResults_only u gone lost r).trans (tellsDone_only _ (r.removed gone d)))
    (s.table.records.filter (HeadRecord.touched gone))
    ((s.setTriggers (s.triggers.filter fun e => !sel e)).setUnits (releaseBookings gone s.units))).table
  rw [← List.foldl_filter, htable] at ho
  exact List.mem_map_of_mem ho

theorem removed_track (gone : List Entry) (d : Bool) (r : HeadRecord) : (r.removed gone d).track = r.track := by
  have hwithout : (r.without gone).track = r.track := by
    unfold HeadRecord.without
    split <;> rfl
  unfold HeadRecord.removed HeadRecord.tested HeadRecord.finished
  split
  · split
    · split
      · exact hwithout
      · exact hwithout
    · exact hwithout
  · rfl

/-- The units after a removal, as R111 has them. -/
theorem releaseBookings_eq (s : State) (gone : List Entry) : releaseBookings gone s.units = s.unitsWithout gone :=
  PerUnit.ext_get fun f => by
    rw [releaseBookings_get, State.unitsWithout, PerUnit.get_tabulate]
    rfl

end

/-- Settles O30, by the removal station by station and record by record. -/
theorem removalWithoutFiringCancels : Obligations.RemovalWithoutFiringCancels := by
  intro s sel lost hs gone touched after changed
  have hunits := releaseBookings_eq s gone
  have hhom := List.foldl_hom (fun u : State => u.mapRecords after) (l := s.table.records.filter touched)
    (init := (s.setTriggers (s.triggers.filter fun e => !sel e)).setUnits (s.unitsWithout gone))
    (g₁ := fun u r => (u.tellsResults gone lost r).tellsDone (after r)) (g₂ := fun u r => (u.tellsResults gone lost r).tellsDone (after r))
    fun u r => by rw [tellsResults_comm (mapRecords_besideOffers after), tellsDone_comm (mapRecords_besideOffers after)]
  have hmain := removeEntries_eq hs sel lost true
  rw [show s.triggers.filter sel = gone from rfl, hunits] at hmain
  refine hmain.trans (hhom.symm.trans ?_)
  refine List.foldl_ext _ _ _ fun u r _ => ?_
  have htrack : (after r).track = r.track := removed_track gone true r
  dsimp only
  unfold State.tellsDone
  rw [htrack]

end Sys2Proof.Machine
end

section
/-! PROOFS. Reversal (R36, R37): the records a passage abandons. O16. -/

namespace Sys2Proof.Machine

/-- The state without the entries of one record in the trigger list and their bookings. -/
def State.withoutEntriesOf (s : State) (n : Nat) : State :=
  (s.setTriggers (s.triggers.filter fun e => !(e.record == n))).setUnits (s.unitsWithout (s.triggers.filter fun e => e.record == n))

/-- A fold in which one element alone acts. -/
theorem foldl_of_single {α β : Type} {f : α → β → α} {l : List β} {b : β} (hl : l.Nodup) (hb : b ∈ l)
    (hother : ∀ a, ∀ c ∈ l, c ≠ b → f a c = a) (a : α) : l.foldl f a = f a b := by
  have hfixed : ∀ k : List β, (∀ c ∈ k, ∀ a, f a c = a) → ∀ a, k.foldl f a = a := fun k hk => by
    induction k with
    | nil => exact fun _ => rfl
    | cons c k ih => exact fun a => by rw [List.foldl_cons, hk c List.mem_cons_self, ih fun d hd => hk d (List.mem_cons_of_mem _ hd)]
  induction l generalizing a with
  | nil => exact absurd hb List.not_mem_nil
  | cons c l ih =>
    obtain ⟨hc, hl⟩ := List.nodup_cons.mp hl
    rw [List.foldl_cons]
    by_cases h : c = b
    · subst h
      exact hfixed l (fun d hd a => hother a d (List.mem_cons_of_mem _ hd) fun h => hc (h ▸ hd)) _
    · rw [hother a c List.mem_cons_self h]
      exact ih hl ((List.mem_cons.mp hb).resolve_left fun k => h k.symm) (fun a d hd => hother a d (List.mem_cons_of_mem _ hd)) a

section

variable {s : State} {n : Nat} {r : HeadRecord} {gone : List Entry} {lost : Option PortId}

/-- What leaves the list for other records does not bear on a record. -/
theorem StationEntry.without_congr {gone' : List Entry} (h : ∀ e, e.record = n → (e ∈ gone ↔ e ∈ gone')) (x : StationEntry) :
    x.without gone n = x.without gone' n := by
  have hany : ∀ b, (∃ e ∈ gone, e.isCamera = b ∧ e.record = n ∧ e.station = x.station) ↔
      ∃ e ∈ gone', e.isCamera = b ∧ e.record = n ∧ e.station = x.station := fun b =>
    exists_congr fun e => ⟨fun ⟨he, hb, hn, hst⟩ => ⟨(h e hn).mp he, hb, hn, hst⟩, fun ⟨he, hb, hn, hst⟩ => ⟨(h e hn).mpr he, hb, hn, hst⟩⟩
  unfold StationEntry.without
  simp only [hany]

theorem HeadRecord.without_congr {gone' : List Entry} (h : ∀ e, e.record = r.number → (e ∈ gone ↔ e ∈ gone')) :
    r.without gone = r.without gone' := by
  unfold HeadRecord.without
  simp only [StationEntry.without_congr h]

theorem tellsResults_congr {gone' : List Entry} (h : ∀ e, e.record = r.number → (e ∈ gone ↔ e ∈ gone')) :
    s.tellsResults gone lost r = s.tellsResults gone' lost r := by
  unfold State.tellsResults
  simp only [StationEntry.without_congr h]

theorem removed_untested : r.removed gone false = r.without gone := by
  unfold HeadRecord.removed
  split
  · rfl
  · rename_i hnot
    exact (without_of_not_touched (by simpa using hnot)).symm

theorem without_state : (r.without gone).state = r.state := by
  unfold HeadRecord.without
  split <;> rfl

theorem without_number : (r.without gone).number = r.number := by
  unfold HeadRecord.without
  split <;> rfl

theorem without_track : (r.without gone).track = r.track := by
  unfold HeadRecord.without
  split <;> rfl

/-- A record that becomes final (R80). -/
theorem finishRecord_eq (hs : s.DistinctNumbers) (hr : s.record n = some r) (x : RecordState) :
    s.finishRecord n x =
      (s.offerByTrack .record r.track (recordFinalNotice { r with state := x })).putRecord n { r with state := x } := by
  rw [finishRecord_of_some hr, updateRecord_eq_putRecord hs hr]
  rfl

/-- A PLANNED record is not DONE without the test. -/
theorem tellsDone_of_touched (h : r.touched gone = true) : s.tellsDone (r.without gone) = s := by
  obtain ⟨hplanned, -⟩ : r.state = .planned ∧ _ := by simpa [HeadRecord.touched] using h
  exact tellsDone_of_not (by simp [without_state, hplanned])

/-- The removal of one record's entries, without the DONE test. -/
theorem removeEntries_of_record (hs : s.DistinctNumbers) (hr : s.record n = some r) :
    s.removeEntries (fun e => e.record == n) none false =
      ((s.withoutEntriesOf n).tellsResults (s.triggers.filter fun e => e.record == n) none r).putRecord n
        (r.without (s.triggers.filter fun e => e.record == n)) := by
  let gone := s.triggers.filter fun e => e.record == n
  have hmine : ∀ o ∈ s.table.records, o ≠ r → o.touched gone = false := fun o ho hne => by
    rw [Bool.eq_false_iff]
    intro h
    obtain ⟨-, e, he, hn⟩ : o.state = .planned ∧ ∃ e, e ∈ gone ∧ e.record = o.number := by simpa [HeadRecord.touched] using h
    have hen : e.record = n := by simpa using (List.mem_filter.mp he).2
    exact hne (eq_of_record hs hr ho (hn.symm.trans hen))
  let u := s.withoutEntriesOf n
  have htells : (if r.touched gone then (u.tellsResults gone none r).tellsDone (r.removed gone false) else u) = u.tellsResults gone none r := by
    split
    · rename_i htouched
      rw [removed_untested]
      exact tellsDone_of_touched htouched
    · rename_i hnot
      exact (tellsResults_of_not_touched (by simpa using hnot)).symm
  rw [removeEntries_eq hs, List.foldl_filter,
    foldl_of_single (b := r) (List.Nodup.of_map _ hs) (record_mem hr) fun u o ho hne => if_neg (by simp [hmine o ho hne, gone]),
    releaseBookings_eq]
  refine (congrArg (State.mapRecords · _) htells).trans ?_
  refine mapRecords_congr fun o ho => ?_
  have ho : o ∈ s.table.records := (tellsResults_only u gone none r).table ▸ ho
  by_cases hn : o.number = n
  · rw [if_pos hn, eq_of_record hs hr ho hn]
    exact removed_untested
  · rw [if_neg hn]
    exact if_neg (by simp [gone, hmine o ho fun h => hn (h ▸ record_number hr)])

/-- A record as its abandonment leaves it, without its entries among `gone` (R37, R78). -/
def HeadRecord.abandonedWithout (gone : List Entry) (r : HeadRecord) : HeadRecord :=
  { r.without gone with state := .abandoned, confirmation := .none, expectedFar := none, residual := none, confirmAt := none, overdue := false }

/-- What an abandonment tells (R125, R80). -/
def State.tellsAbandoned (s : State) (gone : List Entry) (r : HeadRecord) : State :=
  (s.tellsResults gone none r).offerByTrack .record (r.abandonedWithout gone).track (recordFinalNotice (r.abandonedWithout gone))

theorem tellsAbandoned_comm {g : State → State} (hg : BesideOffers g) : (g s).tellsAbandoned gone r = g (s.tellsAbandoned gone r) := by
  unfold State.tellsAbandoned
  rw [tellsResults_comm hg]
  exact hg.offer ..

theorem tellsAbandoned_only (s : State) (gone : List Entry) (r : HeadRecord) : OnlyPorts s (s.tellsAbandoned gone r) :=
  (tellsResults_only ..).trans (offerByTrack_only ..)

/-- One record abandoned (R37); `gone` has the entries of the record that are listed. -/
theorem abandonRecord_eq (hs : s.DistinctNumbers) (hr : s.record n = some r) (hgone : ∀ e, e.record = n → (e ∈ s.triggers ↔ e ∈ gone)) :
    s.abandonRecord n = ((s.withoutEntriesOf n).tellsAbandoned gone r).putRecord n (r.abandonedWithout gone) := by
  have hmine : ∀ e, e.record = r.number → (e ∈ s.triggers.filter (fun e => e.record == n) ↔ e ∈ gone) := fun e he => by
    rw [List.mem_filter, ← hgone e (he.trans (record_number hr)), he, record_number hr]
    simp
  have habandon : s.abandonRecord n =
      ((s.removeEntries (fun e => e.record == n) none false).updateRecord n HeadRecord.abandoned).finishRecord n .abandoned := rfl
  rw [habandon, removeEntries_of_record hs hr, HeadRecord.without_congr hmine, tellsResults_congr hmine]
  have honly := tellsResults_only (s.withoutEntriesOf n) gone none r
  have hrecord : ((s.withoutEntriesOf n).tellsResults gone none r).record n = some r := by
    unfold State.record at hr ⊢
    rwa [honly.table]
  have hdistinct : ((s.withoutEntriesOf n).tellsResults gone none r).DistinctNumbers := honly.sameNumbers.distinct (s := s.withoutEntriesOf n) hs
  have hnumber : (r.without gone).number = n := without_number.trans (record_number hr)
  have hput := putRecord_record hrecord hnumber
  have hputd := (putRecord_numbers hnumber).distinct hdistinct
  have hshut : (r.without gone).abandoned.number = n := hnumber
  rw [updateRecord_eq_putRecord hputd hput, putRecord_putRecord hnumber,
    finishRecord_eq ((putRecord_numbers hshut).distinct hdistinct) (putRecord_record hrecord hshut)]
  exact putRecord_putRecord (s := State.offerByTrack _ .record (r.abandonedWithout gone).track (recordFinalNotice _)) (r := (r.without gone).abandoned) hshut _

theorem abandonedWithout_track : (r.abandonedWithout gone).track = r.track := without_track

theorem abandonedWithout_number : (r.abandonedWithout gone).number = r.number := without_number

end

/-! ### All the records of a reversal -/

/-- Entries taken from a list in two goes. -/
theorem filter_split {α : Type} (l : List α) (p q : α → Bool) :
    (l.filter fun e => p e || q e).Perm (l.filter p ++ (l.filter fun e => !p e).filter q) := by
  have hsplit := (List.filter_append_perm p (l.filter fun e => p e || q e)).symm
  refine hsplit.trans (.of_eq ?_)
  rw [List.filter_filter, List.filter_filter, List.filter_filter]
  congr 1
  · exact List.filter_congr fun e _ => by cases p e <;> simp
  · exact List.filter_congr fun e _ => by cases p e <;> simp

theorem filter_twice {α : Type} (l : List α) (p q : α → Bool) :
    (l.filter fun e => !p e).filter (fun e => !q e) = l.filter fun e => !(p e || q e) := by
  rw [List.filter_filter]
  exact List.filter_congr fun e _ => by cases p e <;> cases q e <;> rfl

/-- Bookings released in two goes, or in another order, are the same released (R111). -/
theorem unitsWithout_twice {s u : State} {gone gone₁ gone₂ : List Entry} (hperm : gone.Perm (gone₁ ++ gone₂))
    (hu : u.units = s.unitsWithout gone₁) : u.unitsWithout gone₂ = s.unitsWithout gone := by
  refine PerUnit.ext_get fun f => ?_
  unfold State.unitsWithout at hu ⊢
  rw [hu]
  simp only [PerUnit.get_tabulate]
  have hdiff := (flashTimes_perm f hperm).diff_left (s.units.get f).bookings
  rw [flashTimes_append, List.diff_append] at hdiff
  exact congrArg (fun b => { s.units.get f with bookings := b }) hdiff.symm

theorem withoutEntriesOf_besideOffers : ∀ l u, BesideOffers fun s => (s.setTriggers l).setUnits u := fun _ _ => ⟨fun _ _ _ => rfl, fun _ => rfl⟩

/-- The records `l` abandoned one by one: their entries and bookings gone, each told of, and the records changed. -/
theorem foldl_withoutEntriesOf (gone : List Entry) (l : List HeadRecord) (s : State) :
    l.foldl (fun u r => (u.withoutEntriesOf r.number).tellsAbandoned gone r) s =
      l.foldl (fun u r => u.tellsAbandoned gone r) ((s.setTriggers (s.triggers.filter fun e => !(l.any fun r => r.number == e.record))).setUnits
        (s.unitsWithout (s.triggers.filter fun e => l.any fun r => r.number == e.record))) := by
  induction l generalizing s with
  | nil =>
    have hunits : s.unitsWithout [] = s.units := PerUnit.ext_get fun f => by rw [State.unitsWithout, PerUnit.get_tabulate]; rfl
    have htriggers : (s.triggers.filter fun e => !(([] : List HeadRecord).any fun r => r.number == e.record)) = s.triggers :=
      List.filter_eq_self.mpr fun _ _ => rfl
    have hnone : (s.triggers.filter fun e => ([] : List HeadRecord).any fun r => r.number == e.record) = [] :=
      List.filter_eq_nil_iff.mpr fun _ _ => by simp
    rw [htriggers, hnone, hunits]
    rfl
  | cons r l ih =>
    let mine (e : Entry) : Bool := e.record == r.number
    let others (e : Entry) : Bool := l.any fun r => r.number == e.record
    have hall : ∀ e : Entry, ((r :: l).any fun r => r.number == e.record) = (mine e || others e) := fun e => by
      rw [List.any_cons, BEq.comm]
    have honly := tellsAbandoned_only (s.withoutEntriesOf r.number) gone r
    have htriggers : ((s.withoutEntriesOf r.number).tellsAbandoned gone r).triggers = s.triggers.filter fun e => !mine e := honly.triggers
    have hunits : ((s.withoutEntriesOf r.number).tellsAbandoned gone r).units = s.unitsWithout (s.triggers.filter mine) := honly.units
    rw [List.foldl_cons, List.foldl_cons, ih, htriggers, filter_twice, unitsWithout_twice (filter_split s.triggers mine others) hunits]
    simp only [hall]
    refine congrArg (l.foldl _) ?_
    rw [tellsAbandoned_comm (withoutEntriesOf_besideOffers ..), State.withoutEntriesOf, tellsAbandoned_comm (withoutEntriesOf_besideOffers ..)]
    generalize s.tellsAbandoned gone r = told
    rfl

/-! ### The edge that completes the orphan run (R28, R36) -/

/-- The passage once its third orphan has reversed it. -/
theorem trailingEdge_reversing {p : Passage} {c : TrackConfig} {stamp : Time} (hfresh : freshQueue (pairingLimit c) stamp p.queue = [])
    (horphan : 2 ≤ p.orphan) : { (p.trailingEdge c stamp).flushed with reversed := true } =
      { p with reversed := true, trailing := min (p.trailing + 1) 65535, rejected := min (p.rejected + p.queue.length + 1) 65535
               queue := [], orphan := 3 } := by
  have hrejected : satAdd (satSucc (satAdd p.rejected p.queue.length)) 0 = min (p.rejected + p.queue.length + 1) 65535 := by
    simp only [satAdd, satSucc]
    omega
  have hrun : min 3 (p.orphan + 1) = 3 := by omega
  simp only [Passage.trailingEdge, hfresh, Passage.flushed, List.length_nil, Nat.sub_zero, hrejected, hrun]
  rfl

/-- The records a reversal abandons: those of the passage that are not final (R37). -/
theorem abandons_eq (r : HeadRecord) (t : Track) : (r.track == t && r.ofOpenPassage && !r.state.final) =
    decide (r.track = t ∧ r.ofOpenPassage = true ∧ (r.state = .forming ∨ r.state = .planned)) := by
  have hstate : (!r.state.final) = true ↔ r.state = .forming ∨ r.state = .planned := by
    rw [final_iff]
    cases r.state <;> decide
  rw [Bool.eq_iff_iff, Bool.and_eq_true, Bool.and_eq_true, hstate, decide_eq_true_iff, beq_iff_eq, and_assoc]

theorem completesOrphanRun_of_stale {p : Passage} {c : TrackConfig} {stamp : Time} (hfresh : freshQueue (pairingLimit c) stamp p.queue = [])
    (horphan : 2 ≤ p.orphan) : p.completesOrphanRun c stamp = true := by
  have hrun : 3 ≤ p.orphan + 1 := by omega
  simp [Passage.completesOrphanRun, hfresh, hrun]

/-- A passage replaced and then updated. -/
theorem updatePassage_setPassages (s : State) (t : Track) (p : Passage) (f : Passage → Passage) :
    (s.setPassages (s.passages.set t (some p))).updatePassage t f = s.setPassages (s.passages.set t (some (f p))) := by
  rw [updatePassage_of_open (p := p) (PerTrack.get_set_self ..)]
  refine congrArg s.setPassages (PerTrack.ext_get fun k => ?_)
  by_cases hk : t = k
  · subst hk
    simp
  · simp [hk]

/-- What a reversal does, once the passage is REVERSED (R36, R37). -/
theorem reverse_eq {s : State} {t : Track} {p : Passage} (w : Wheel) :
    (s.setPassages (s.passages.set t (some p))).reverse t w =
      (((s.toAbandon t).foldl State.abandonRecord (s.setPassages (s.passages.set t (some { p.flushed with reversed := true })))).raise
        { kind := .reversal, track := some t, item := .input (.wheel w)
          time := ((s.toAbandon t).foldl State.abandonRecord (s.setPassages (s.passages.set t (some { p.flushed with reversed := true })))).now
        }).testClose t := by
  unfold State.reverse
  rw [updatePassage_setPassages]
  rfl

theorem abandonRecords_eq {s : State} (hs : s.DistinctNumbers) {l : List HeadRecord} (hl : l.Sublist s.table.records) :
    (l.map (·.number)).foldl State.abandonRecord s =
      (l.foldl (fun u r => u.tellsAbandoned s.triggers r)
        ((s.setTriggers (s.triggers.filter fun e => !(l.any fun r => r.number == e.record))).setUnits
          (s.unitsWithout (s.triggers.filter fun e => l.any fun r => r.number == e.record)))).mapRecords
            fun o => if o.number ∈ l.map (·.number) then o.abandonedWithout s.triggers else o := by
  rw [← foldl_withoutEntriesOf]
  refine foldl_putRecord (step := State.abandonRecord) (tell := fun u r => (u.withoutEntriesOf r.number).tellsAbandoned s.triggers r)
    (after := HeadRecord.abandonedWithout s.triggers) (ok := fun u r => ∀ e, e.record = r.number → (e ∈ u.triggers ↔ e ∈ s.triggers))
    ?_ (fun u r hu hr hgone => abandonRecord_eq hu hr hgone) (fun r => abandonedWithout_number)
    (fun u r => (tellsAbandoned_only ..).table) ?_ l s hs (List.Nodup.sublist (hl.map _) hs) fun r hr => ⟨record_of_mem hs (hl.subset hr), fun _ _ => .rfl⟩
  · intro u r o hne hgone e he
    have htriggers : (((u.withoutEntriesOf r.number).tellsAbandoned s.triggers r).putRecord r.number (r.abandonedWithout s.triggers)).triggers =
        u.triggers.filter fun e => !(e.record == r.number) := (tellsAbandoned_only ..).triggers
    rw [htriggers, List.mem_filter, hgone e he, he]
    simp [hne]
  · intro u r n o
    exact tellsAbandoned_comm (s := u.withoutEntriesOf r.number) (putRecord_besideOffers n o)

/-- Settles O16, by the records abandoned one by one. -/
theorem thirdOrphanReversesThePassage : Obligations.ThirdOrphanReversesThePassage := by
  intro s t w stamp p c abandons abandoned mine goes reversed changed told hmode hp hrun hw horphan hqueue hs
  have hfresh : freshQueue (pairingLimit c) stamp (p.movedBy c stamp).queue = [] := by
    rw [Passage.movedBy_queue, ← List.append_nil p.queue]
    exact freshQueue_append hqueue nofun
  have horphan' : 2 ≤ (p.movedBy c stamp).orphan := by rwa [Passage.movedBy_orphan]
  have hcompletes := completesOrphanRun_of_stale hfresh horphan'
  have hedge : s.wheelEdge t w true stamp =
      (s.setPassages (s.passages.set t (some ((p.movedBy c stamp).trailingEdge c stamp)))).reverse t w := by
    rw [wheelEdge_of_open hmode hp, State.takeWheelEdge]
    simp [Passage.touch_eq_movedBy, hrun, hw, trailingWheel_ne_leadingWheel, hcompletes, c]
  have hreversed : { ((p.movedBy c stamp).trailingEdge c stamp).flushed with reversed := true } = reversed := by
    rw [trailingEdge_reversing hfresh horphan', Passage.movedBy_trailing, Passage.movedBy_rejected, Passage.movedBy_queue]
  have hmine : s.toAbandon t = mine.map (·.number) := congrArg (List.map _) (List.filter_congr fun r _ => abandons_eq r t)
  let base := s.setPassages (s.passages.set t (some reversed))
  have htells : ∀ u : State, OnlyPorts u (mine.foldl (fun u r => u.tellsAbandoned s.triggers r) u) := fun u =>
    foldl_keeps OnlyPorts.refl (fun _ _ _ => OnlyPorts.trans) (fun u r => tellsAbandoned_only u s.triggers r) mine u
  have hfold : mine.foldl (fun u r => u.tellsAbandoned s.triggers r) changed = told := List.foldl_ext _ _ _ fun u r hr => by
    obtain ⟨-, habandons⟩ := List.mem_filter.mp hr
    obtain ⟨htrack, -⟩ := of_decide_eq_true habandons
    rw [State.tellsAbandoned, abandonedWithout_track, htrack]
    rfl
  have habandoned : (mine.map (·.number)).foldl State.abandonRecord base = told := by
    rw [abandonRecords_eq (s := base) (l := mine) hs List.filter_sublist, ← hfold]
    refine (mapRecords_congr fun o ho => ?_).trans
      (List.foldl_hom (fun u : State => u.mapRecords fun r => if abandons r = true then abandoned r else r)
        fun u r => tellsAbandoned_comm (mapRecords_besideOffers _)).symm
    have htable := (htells ((base.setTriggers (s.triggers.filter fun e => !goes e)).setUnits (s.unitsWithout (s.triggers.filter goes)))).table
    have ho : o ∈ s.table.records := (congrArg (fun x : RecordTable => o ∈ x.records) htable).mp ho
    have hiff : o.number ∈ mine.map (·.number) ↔ abandons o = true := by
      refine ⟨fun h => ?_, fun h => List.mem_map.mpr ⟨o, List.mem_filter.mpr ⟨ho, h⟩, rfl⟩⟩
      obtain ⟨r, hr, hn⟩ := List.mem_map.mp h
      obtain ⟨hmem, habandons⟩ := List.mem_filter.mp hr
      rwa [List.inj_on_of_nodup_map hs ho hmem hn.symm]
    simp only [hiff]
    rfl
  have hclock : told.clock = s.clock := by
    rw [← hfold]
    exact (htells changed).clock
  rw [hedge, reverse_eq, hreversed, hmine, habandoned, State.now, hclock]

end Sys2Proof.Machine
end

section
/-! PROOFS. Reservations, firings, the units' and outputs' deadlines, and the flash inhibit (chapters 5 and 6). O26, O27, O28, O29, O31. -/

namespace Sys2Proof.Machine

/-! ### Footprints as equations -/

theorem OnlyRecords.eq {s u : State} (h : OnlyRecords s u) : u = (s.setTable u.table).setPorts u.ports := by
  cases u
  simp only [State.setTable, State.setPorts, State.mk.injEq, true_and]
  exact ⟨h.clock, h.inputs, h.passages, h.nextPassage, h.heads, h.stations, h.units, h.inhibit, h.triggers, h.outputs, h.tracks,
    h.unitSnapshot, h.bindings, h.faults, h.store, h.image, h.maint, h.choices, h.pending⟩

theorem OnlyPorts.eq {s u : State} (h : OnlyPorts s u) : u = s.setPorts u.ports := by
  rw [h.toOnlyRecords.eq, h.table]
  rfl

/-! ### A decided station (R101 to R105) -/

/-- Settles O26, by the step that decided. -/
theorem decidedStationReservesAndReports : Obligations.DecidedStationReservesAndReports := by
  intro s t n st c p now place booked entry written noted u
  have hplace : place = placeBy fun x => (x.fireAt - s.clock.tb).toNat := rfl
  have hwritten : (fun r : HeadRecord => { r with entries := r.entries ++ [p.entry st] }) =
      fun r => { r with entries := r.entries ++ [written] } := rfl
  refine ⟨fun hpending => ?_, fun hfull => ?_, fun hnot hnotfull => ?_⟩
  · have hu : u = ((s.reserve n st c p).updateRecord n fun r => { r with entries := r.entries ++ [written] }).offerToHolder .plan
        (s.bindings.get st) (headPlannedNotice n st p.trigger p.flash) := by
      simp only [u, State.applyPlan, hpending, if_true]
      rw [hwritten]
      rfl
    have htriggers : u.triggers = (s.reserve n st c p).triggers := by rw [hu]; rfl
    have hunits : u.units = (s.reserve n st c p).units := by rw [hu]; rfl
    refine ⟨?_, fun f => ?_, ?_⟩
    · rw [htriggers, reserve_triggers]
      rfl
    · rw [hunits, reserve_units_get]
      rfl
    · rw [htriggers, hunits, hu]
      rfl
  · have hnot : p.camera ≠ .pending := by simp [hfull]
    simp only [u, State.applyPlan, hfull, if_true]
    rw [hwritten]
    rfl
  · simp only [u, State.applyPlan, hnot, hnotfull, if_false]
    rfl

/-! ### Firing (R123, R124) -/

section

variable {s : State} {before after : List Entry} {e : Entry} {o : OutputLine}

theorem dueEntry_eq (htriggers : s.triggers = before ++ e :: after) (ho : e.output = o) (hdue : e.fireAt = s.clock.tb)
    (hfirst : ∀ x ∈ before, ¬ (x.output = o ∧ x.fireAt = s.clock.tb)) : s.dueEntry o = some e := by
  unfold State.dueEntry
  rw [htriggers, List.find?_append, List.find?_eq_none.mpr fun x hx => by simpa [State.now] using hfirst x hx,
    List.find?_cons_of_pos (by simp [ho, hdue, State.now])]
  rfl

theorem erase_due (hdue : e.output = o ∧ e.fireAt = s.clock.tb) (hfirst : ∀ x ∈ before, ¬ (x.output = o ∧ x.fireAt = s.clock.tb)) :
    (before ++ e :: after).erase e = before ++ after := by
  rw [List.erase_append_right _ fun he => hfirst e he hdue, List.erase_cons_head]

end

/-- A record's entries of distinct stations: the one of a station is its only one. -/
theorem entryOf_of_mem {r : HeadRecord} {x : StationEntry} (hnodup : (r.entries.map (·.station)).Nodup) (hx : x ∈ r.entries) :
    r.entryOf x.station = some x := by
  obtain ⟨y, hy⟩ : ∃ y, r.entryOf x.station = some y := by
    rw [← Option.ne_none_iff_exists']
    exact fun hnone => entryOf_none_iff.mp hnone x hx rfl
  obtain ⟨hmem, hst⟩ := entryOf_some hy
  rw [hy, List.inj_on_of_nodup_map hnodup hmem hx hst]

theorem withEntry_eq_put {r : HeadRecord} {x : StationEntry} (hnodup : (r.entries.map (·.station)).Nodup) (hx : x ∈ r.entries)
    (f : StationEntry → StationEntry) :
    r.withEntry x.station f = { r with entries := r.entries.map fun y => if y.station = x.station then f x else y } := by
  unfold HeadRecord.withEntry
  rw [List.map_congr_left fun y hy => ?_]
  split
  · rw [List.inj_on_of_nodup_map hnodup hy hx ‹_›]
  · rfl

/-- What a firing's update of its station entry changes and reports (R123, R124, R125), beside what the firing itself changed. -/
theorem fired_eq {s : State} {g : State → State} (hg : BesideOffers g) (hrecord : ∀ u, (g u).table = u.table)
    (hports : ∀ u p, g (u.setPorts p) = (g u).setPorts p) (hs : s.DistinctNumbers) {r : HeadRecord} {x : StationEntry}
    (hr : r ∈ s.table.records) (hplanned : r.state = .planned) (hx : x ∈ r.entries) (hnodup : (r.entries.map (·.station)).Nodup)
    (holder : Option PortId) (f : StationEntry → StationEntry) :
    let r' : HeadRecord := { r with entries := r.entries.map fun y => if y.station = x.station then f x else y }
    let told := if x.settled = false ∧ (f x).settled = true then s.offerToHolder .result holder (stationResultNotice r.number (f x)) else s
    let final := if r'.finished.state = .done then told.offerByTrack .record r.track (recordFinalNotice r'.finished) else told
    ((g s).updateEntry r.number x.station holder f).testDone r.number =
      ((g s).setTable { s.table with records := s.table.records.map fun o => if o.number = r.number then r'.finished else o }).setPorts
        final.ports := by
  intro r' told final
  have hgs : (g s).DistinctNumbers := by
    unfold State.DistinctNumbers
    rwa [hrecord]
  have hrec : (g s).record r.number = some r := by
    have := record_of_mem hs hr
    unfold State.record at this ⊢
    rwa [hrecord]
  have htold : s.tellsEntry r x.station holder f = told := by
    rw [tellsEntry_of_some (entryOf_of_mem hnodup hx)]
    simp only [hplanned, true_and]
    rfl
  have htrack : r'.finished.track = r.track := by
    unfold HeadRecord.finished
    split <;> rfl
  have hfinal : told.tellsDone r'.finished = final := by
    unfold State.tellsDone
    rw [htrack]
  have honly : OnlyPorts s final := by
    rw [← hfinal, ← htold]
    exact (tellsEntry_only ..).trans (tellsDone_only ..)
  rw [updateEntry_testDone hgs hrec hplanned, tellsEntry_comm hg, tellsDone_comm hg, withEntry_eq_put hnodup hx, htold, hfinal, honly.eq, hports]
  have htable : ((g s).setPorts final.ports).table = s.table := hrecord s
  unfold State.putRecord State.mapRecords
  rw [htable]
  rfl

/-- The tie of a firing's report to what it changed. -/
theorem cameraFired_settles (x : StationEntry) :
    x.settled = false ∧ x.cameraFired.settled = true ↔ x.camera = .pending ∧ x.flash ≠ .booked := by
  unfold StationEntry.cameraFired
  by_cases hpending : x.camera = .pending
  · simp [hpending, StationEntry.settled, CameraOutcome.final, FlashResult.final]
  · simp [hpending]

/-- Settles O27, by the station entry the firing updates. -/
theorem cameraFireExposesAndReports : Obligations.CameraFireExposesAndReports := by
  intro s st before after e now new ends exposed hs htriggers ho hdue hfirst
  let g (u : State) : State := ((u.setTriggers (before ++ after)).setOutputs { s.outputs with cam := s.outputs.cam.set st (some ends) }).setStations
    (s.stations.set st { lastFire := some now, ageOutAt := some (now + 2000000) })
  have hends : some (pulseEndAfter (s.outputs.cam.get st) (plus s.now (s.stationInForce st).pulse)) = some ends := by
    simp only [ends]
    cases s.outputs.cam.get st with
    | none => rfl
    | some old => simp [pulseEndAfter, isAfter, signedDiff, plus, new, now, State.now]
  have hexec : exec (.cameraFire st) s = .next ((exposed.updateEntry e.record e.station (s.bindings.get e.station)
      StationEntry.cameraFired).testDone e.record) := by
    refine congrArg Host.Outcome.next ((whenRunning_of_running hs _).trans ?_)
    unfold State.fireCamera
    rw [dueEntry_eq htriggers ho hdue hfirst]
    have herase : s.triggers.erase e = before ++ after := htriggers ▸ erase_due ⟨ho, hdue⟩ hfirst
    have hcam : s.outputs.cam.modify st (fun held => some (pulseEndAfter held (plus s.now (s.stationInForce st).pulse))) =
        s.outputs.cam.set st (some ends) := congrArg (s.outputs.cam.set st) hends
    have hfire : s.fireCameraEntry st e = (((((s.setTriggers (s.triggers.erase e)).setOutputs { s.outputs with
        cam := s.outputs.cam.modify st fun held => some (pulseEndAfter held (plus s.now (s.stationInForce st).pulse)) }).setStations
        (s.stations.set st { lastFire := some now, ageOutAt := some (now + 2000000) })).updateEntry e.record e.station
          (s.bindings.get e.station) StationEntry.cameraFired).testDone e.record) := rfl
    dsimp only
    rw [hfire, herase, hcam]
  refine ⟨⟨_, hexec, ((updateEntry_only ..).trans (testDone_only ..)).eq⟩, ?_⟩
  intro r x hdistinct hr hn hplanned hx hst hnodup fired r' told final
  have hg : BesideOffers g := ⟨fun _ _ _ => rfl, fun _ => rfl⟩
  have hfired : x.cameraFired = fired := by
    simp only [fired, StationEntry.cameraFired]
    split <;> rfl
  have hmain := fired_eq hg (fun _ => rfl) (fun _ _ => rfl) hdistinct hr hplanned hx hnodup (s.bindings.get e.station) StationEntry.cameraFired
  simp only [cameraFired_settles] at hmain
  simp only [hfired, hst] at hmain
  rw [hexec, ← hn]
  exact congrArg Host.Outcome.next hmain

/-- Settles O28, by the station entry the firing updates and whether another FLASH entry of it is left. -/
theorem flashFireDischargesAndReports : Obligations.FlashFireDischargesAndReports := by
  intro s f before after e now unit lit last hs htriggers ho hdue hfirst
  let isLast := !((before ++ after).any fun x => !x.isCamera && x.serves e.record e.station)
  let g (u : State) : State := ((u.setTriggers (before ++ after)).setOutputs { s.outputs with fire := s.outputs.fire.set f (some (now + 50)) }).setUnits
    (s.units.set f unit)
  have hlast : isLast = true ↔ last := by
    simp [isLast, last, Entry.serves, or_imp, forall_and]
  have hexec : exec (.flashFire f) s = .next ((lit.updateEntry e.record e.station (s.bindings.get e.station)
      (StationEntry.flashFired f isLast)).testDone e.record) := by
    refine congrArg Host.Outcome.next ((whenRunning_of_running hs _).trans ?_)
    unfold State.fireFlash
    rw [dueEntry_eq htriggers ho hdue hfirst]
    have herase : s.triggers.erase e = before ++ after := htriggers ▸ erase_due ⟨ho, hdue⟩ hfirst
    dsimp only [State.fireFlashEntry, setTriggers_triggers]
    rw [herase]
    rfl
  refine ⟨⟨_, hexec, ((updateEntry_only ..).trans (testDone_only ..)).eq⟩, ?_⟩
  intro r x hdistinct hr hn hplanned hx hst hnodup
  have hg : BesideOffers g := ⟨fun _ _ _ => rfl, fun _ => rfl⟩
  have hmain := fired_eq hg (fun _ => rfl) (fun _ _ => rfl) hdistinct hr hplanned hx hnodup (s.bindings.get e.station)
    (StationEntry.flashFired f isLast)
  refine ⟨x.flashFired f isLast, fun h => ?_, fun h => ?_, rfl, ?_⟩
  · simp [StationEntry.flashFired, hlast.mpr h]
  · have hnot : isLast = false := Bool.eq_false_iff.mpr fun k => h (hlast.mp k)
    simp [StationEntry.flashFired, hnot]
  · intro r' told final
    simp only [hst] at hmain
    rw [hexec, ← hn]
    exact congrArg Host.Outcome.next hmain

/-! ### Deadlines of monitors, pulses and units (R12, R16, R107, R110, R126) -/

theorem isDue_of_eq {s : State} {x : Option Time} (h : x = some s.clock.tb) : isDue s.now x = true := by simp [isDue, h, State.now]

/-- Settles O29, each expiry by its branch at its time. -/
theorem stuckPulseChargeAndAgeDeadlines : Obligations.StuckPulseChargeAndAgeDeadlines := by
  intro s t w st f hs c stuck
  have hrun : ∀ g : State → State, s.whenRunning g = g s := fun g => whenRunning_of_running hs g
  refine ⟨fun hdue hpin => ?_, fun hdue hpin => ?_, fun hdue => ?_, fun hdue => ?_, fun hdue => ?_, fun hdue => ?_, fun hdue => ?_⟩
  · exact congrArg Host.Outcome.next ((hrun _).trans ((if_pos (isDue_of_eq hdue)).trans (if_pos hpin)))
  · exact congrArg Host.Outcome.next ((hrun _).trans ((if_pos (isDue_of_eq hdue)).trans (if_pos hpin)))
  · exact congrArg Host.Outcome.next ((hrun _).trans (if_pos (isDue_of_eq hdue)))
  · exact congrArg Host.Outcome.next ((hrun _).trans (if_pos (isDue_of_eq hdue)))
  · refine congrArg Host.Outcome.next ((hrun _).trans ((if_pos (isDue_of_eq hdue)).trans ?_))
    refine congrArg (fun u => s.setUnits (s.units.set f u)) ?_
    unfold FlashUnit.charged
    cases (s.units.get f).state <;> rfl
  · exact congrArg Host.Outcome.next ((hrun _).trans (if_pos (isDue_of_eq hdue)))
  · exact congrArg Host.Outcome.next ((hrun _).trans (if_pos (isDue_of_eq hdue)))

/-! ### The flash inhibit (R113, R114) -/

/-- Settles O31, by the pin's sample. -/
theorem flashInhibitStopsAndFreesTheUnits : Obligations.FlashInhibitStopsAndFreesTheUnits := by
  intro s stops taken inhibited
  have hstops : inhibited.inhibits = stops := funext fun e => by
    unfold State.inhibits Entry.isCamera
    simp only [stops]
    cases e.output <;> rfl
  refine ⟨fun hs => ⟨congrArg Host.Outcome.next (if_neg hs), congrArg Host.Outcome.next (if_neg hs)⟩, fun hs htaken hlow => ?_,
    fun hs htaken hhigh => ⟨s.releaseInhibit, ?_, rfl, fun f => ?_⟩, fun hs hkeep => ?_, fun hs hkeep => ?_⟩
  · refine congrArg Host.Outcome.next ((if_pos hs).trans ((if_neg (by simp [htaken, hlow])).trans ?_))
    rw [← hstops]
    rfl
  · exact congrArg Host.Outcome.next ((if_pos hs).trans (if_neg (by simp [htaken, hhigh])))
  · have hget : s.releaseInhibit.units.get f = if (s.units.get f).state = .inhibited then
        { s.units.get f with state := if (s.units.get f).chargeAt.isSome then .charging else .ready } else s.units.get f :=
      PerUnit.get_tabulate ..
    rw [hget]
    split
    · cases (s.units.get f).chargeAt <;> rfl
    · rfl
  · exact congrArg Host.Outcome.next ((if_pos hs).trans (if_pos (by simpa [or_comm] using hkeep)))
  · exact congrArg Host.Outcome.next ((if_pos hs).trans (if_pos (by simpa [or_comm] using hkeep)))

end Sys2Proof.Machine
end

section
/-! PROOFS. Notices and faults: routing, queueing, layouts (chapters 8, 9 and 11). O32, O33, O34. -/

namespace Sys2Proof.Machine

/-! ### Bytes (1.7, R178) -/

/-- Eight bits taken from a word, as the byte of its value. -/
theorem extractLsb'_eq_ofNat {w : Nat} (x : BitVec w) (k : Nat) : x.extractLsb' k 8 = .ofNat 8 (x.toNat / 2 ^ k) := by
  refine BitVec.eq_of_toNat_eq ?_
  rw [BitVec.extractLsb'_toNat, Nat.shiftRight_eq_div_pow, BitVec.toNat_ofNat]

theorem bytes2_toNat (x : BitVec 16) : bytes2 x.toNat = [x.extractLsb' 8 8, x.extractLsb' 0 8] := by
  simp [bytes2, extractLsb'_eq_ofNat]

theorem bytes3_toNat (x : BitVec 24) : bytes3 x.toNat = [x.extractLsb' 16 8, x.extractLsb' 8 8, x.extractLsb' 0 8] := by
  simp [bytes3, extractLsb'_eq_ofNat]

theorem bytes4_toNat (x : BitVec 32) : bytes4 x.toNat = bigEndian x := by
  simp [bytes4, bigEndian, extractLsb'_eq_ofNat]

theorem timeBytes_eq (t : Time) : timeBytes t = bigEndian t := bytes4_toNat t

/-- Bytes that agree modulo 256. -/
theorem ofNat_eq_of_mod {a b : Nat} (h : a % 256 = b % 256) : BitVec.ofNat 8 a = .ofNat 8 b :=
  BitVec.eq_of_toNat_eq (by simpa using h)

/-! ### Routing (R164) and queueing (R158) -/

theorem canQueue_eq_false_iff {x : Port} : x.canQueue = false ↔ x.inReset = true ∨ x.attendance = .lapsed ∨ 32 ≤ x.queue.length := by
  have hattended : x.attendance = .attended ↔ ¬ x.attendance = .lapsed := by cases x.attendance <;> simp
  rw [← Bool.not_eq_true, Port.canQueue_iff, hattended]
  simp only [queueLimit, Bool.eq_false_iff]
  by_cases h : x.inReset = true <;> by_cases hl : x.attendance = .lapsed <;> simp [h, hl]

theorem offer_ports_get (s : State) (named : PortId → Port → Bool) (n : Notice) (p : PortId) :
    (s.offer named n).ports.get p = if named p (s.ports.get p) then (s.ports.get p).offer n else s.ports.get p := PerPort.get_tabulate ..

/-- Settles O32, by the selection of the ports and the three cases of a port. -/
theorem noticesAreRoutedQueuedOrDropped : Obligations.NoticesAreRoutedQueuedOrDropped := by
  intro s n c t holder x wants follows bytes refused
  have hwants : ∀ p, (s.ports.get p).wantsClass c = wants p := fun p => by cases c <;> rfl
  have hfollows : ∀ p, (s.ports.get p).wantsTrack t = follows p := fun p => by cases t <;> rfl
  have hrefused : x.canQueue = false ↔ refused := canQueue_eq_false_iff
  have hroom : ¬ refused → x.canQueue = true := fun h => by simpa using mt hrefused.mp h
  refine ⟨⟨(s.offerByTrack c t n).ports, rfl, fun p => ?_⟩, ⟨(s.offerToHolder c holder n).ports, rfl, fun p => ?_⟩, fun h => ?_,
    fun h hwait => ?_, fun h hexec hidle hreply hqueue => ?_⟩
  · rw [State.offerByTrack, offer_ports_get]
    simp only [hwants, hfollows, Bool.and_eq_true, and_comm]
  · rw [State.offerToHolder, offer_ports_get]
    simp only [hwants, Bool.and_eq_true, beq_iff_eq]
  · exact Port.offer_refused (hrefused.mpr h) n
  · exact Port.offer_queued (hroom h) hwait n
  · exact Port.offer_loaded (hroom h) hexec hidle hreply hqueue n

/-! ### The bodies of notices (R178) -/

/-- The three bytes of a passage summary: the estimate below its four flags. -/
theorem summaryBytes_eq (v a b c d : Nat) : bytes3 (v + 1048576 * a + 2097152 * b + 4194304 * c + 8388608 * d) =
    [.ofNat 8 (16 * (a + 2 * b + 4 * c + 8 * d) + v / 65536), .ofNat 8 (v / 256), .ofNat 8 v] := by
  have hhigh : (v + 1048576 * a + 2097152 * b + 4194304 * c + 8388608 * d) / 65536 = 16 * (a + 2 * b + 4 * c + 8 * d) + v / 65536 := by omega
  simp only [bytes3, hhigh]
  rw [ofNat_eq_of_mod (show (v + 1048576 * a + 2097152 * b + 4194304 * c + 8388608 * d) / 256 % 256 = v / 256 % 256 by omega),
    ofNat_eq_of_mod (show (v + 1048576 * a + 2097152 * b + 4194304 * c + 8388608 * d) % 256 = v % 256 by omega)]

theorem maskByte_eq (x : BitVec 6) : x.setWidth 8 = (0 : BitVec 2) ++ x := by
  have happend : (0#2 ++ x : BitVec (2 + 6)).toNat = x.toNat := (BitVec.toNat_append ..).trans (by simp)
  have hsmall := x.isLt
  refine BitVec.eq_of_toNat_eq (Eq.trans ?_ happend.symm)
  rw [BitVec.toNat_setWidth]
  omega

/-- Settles O33, body by body. -/
theorem noticeBodiesHaveTheirLayout : Obligations.NoticeBodiesHaveTheirLayout := by
  intro t p closed trigger n st f x r pair flag track direction station flash camera state confirmation residual v bits
  have hstation : ∀ st, BitVec.ofNat 8 (stationCode st) = station st := fun st => by cases st <;> rfl
  have htrack : trackCode t = track := by cases t <;> rfl
  have hdirection : directionCode p.direction = direction := by cases h : p.direction <;> simp [direction, h, directionCode]
  have hflash : ∀ f, flashCode f = flash f := fun f => by cases f <;> rfl
  have hcamera : ∀ c, cameraCode c = camera c := fun c => by cases c <;> rfl
  have hstate : recordStateCode r.state = state := by cases h : r.state <;> simp [state, h, recordStateCode]
  have hconfirmation : confirmationCode r.confirmation = confirmation := by cases h : r.confirmation <;> simp [confirmation, h, confirmationCode]
  refine ⟨?_, ?_, ?_, ?_, ?_⟩
  · rw [passageOpenedNotice, htrack, hdirection, timeBytes_eq]
    rfl
  · have hbit : ∀ b w, flag b w = w * bit b := fun b w => by cases b <;> simp [flag, bit]
    have hbits : bits = trackCode t + 2 * directionCode p.direction + 4 * bit p.reversed + 8 * bit p.tag.isSome := by
      simp only [bits, hbit, htrack, hdirection]
    rw [passageClosedNotice, summaryBytes_eq, ← hbits, timeBytes_eq, timeBytes_eq, bytes4_toNat, Nat.min_comm 255, Nat.min_comm 255,
      Nat.min_comm 255]
    rfl
  · rw [headPlannedNotice, hstation, hflash, timeBytes_eq]
    rfl
  · rw [stationResultNotice, hstation, outcomesByte, hflash, hcamera, maskByte_eq]
    rfl
  · rw [recordFinalNotice, stateByte, hstate, hconfirmation, residualBytes, bytes2_toNat]
    rfl

/-! ### Faults (R169) -/

theorem faultBit_getLsbD (k : FaultKind) (i : Nat) : (faultBit k).getLsbD i = decide (i = faultCode k) := by
  by_cases hi : i < 9
  · interval_cases i <;> cases k <;> rfl
  · have hne : i ≠ faultCode k := by
      cases k <;> simp only [faultCode] <;> omega
    rw [BitVec.getLsbD_of_ge _ _ (by omega), decide_eq_false hne]

/-- Settles O34, by the flag, the held record and the routing. -/
theorem raisedFaultIsHeldAndReported : Obligations.RaisedFaultIsHeldAndReported := by
  intro s f code item notice u
  have hcode : faultCode f.kind = code := by cases h : f.kind <;> simp [code, h, faultCode]
  have hitem : itemValue f.item = item := by
    simp only [item]
    cases h : f.item with
    | none => rfl
    | record n => rfl
    | input i =>
      cases i with
      | wheel w => cases w <;> rfl
      | beam b => cases b <;> rfl
  have hnotice : faultNotice f = notice := by
    simp only [faultNotice, faultBytes, notice, hcode, hitem, timeBytes_eq]
    cases f.track with
    | none => rfl
    | some t => cases t <;> rfl
  refine ⟨fun k => ?_, ?_, fun p => ?_, rfl⟩
  · refine (BitVec.getLsbD_or ..).trans ?_
    rw [faultBit_getLsbD, hcode]
  · simp only [u, State.raise]
    cases h : s.faults.held <;> simp [State.offer]
  · rw [← hnotice]
    exact offer_ports_get ..

end Sys2Proof.Machine
end

section
/-! PROOFS. The client ports: accesses, framing, execution, output, attendance and reset (chapter 8). O35 to O40. -/

namespace Sys2Proof.Machine

section

variable {s : State} (hs : s.Running)
include hs

theorem exec_dataWrite (p : PortId) (b : Byte) : exec (.dataWrite p b) s = .next (s.writeByte p b) :=
  congrArg Host.Outcome.next (whenRunning_of_running hs _)

theorem exec_dataRead (p : PortId) : exec (.dataRead p) s = .next (s.readByte p) :=
  congrArg Host.Outcome.next (whenRunning_of_running hs _)

theorem exec_statusWrite (p : PortId) : exec (.statusWrite p) s = .next (s.writeStatus p) :=
  congrArg Host.Outcome.next (whenRunning_of_running hs _)

end

theorem updatePort_eq (s : State) (p : PortId) (f : Port → Port) : s.updatePort p f = s.setPorts (s.ports.set p (f (s.ports.get p))) := rfl

/-! ### Data writes (R152, R153) -/

theorem frameComplete_iff (bytes : List Byte) : frameComplete bytes = true ↔
    ∃ k n body, bytes = k :: n :: body ∧ (n = 0 ∨ 15 ≤ n.toNat ∨ n.toNat ≤ body.length) := by
  match bytes with
  | [] => simp [frameComplete]
  | [_] => simp [frameComplete]
  | k :: n :: body =>
    simp only [frameComplete, Bool.or_eq_true, decide_eq_true_eq, List.cons.injEq, or_assoc]
    exact ⟨fun h => ⟨k, n, body, ⟨rfl, rfl, rfl⟩, h⟩, fun ⟨_, _, _, ⟨_, hn, hbody⟩, h⟩ => hn ▸ hbody ▸ h⟩

/-- A frame completed while a reply is in the slot is held. -/
theorem writeByte_withholds {s : State} {p : PortId} {b : Byte} (hin : (s.ports.get p).inReset = false) (hempty : (s.ports.get p).holder = none)
    (hheld : (s.ports.get p).holding = false) (hwhole : frameComplete ((s.ports.get p).assembler ++ [b]) = true)
    (hreply : (s.ports.get p).reply ≠ none) :
    s.writeByte p b = s.updatePort p fun x => { x with assembler := x.assembler ++ [b], holding := true } := by
  simp only [State.writeByte, State.assemble, hin, hempty, hheld, updatePort_get, hwhole, Option.isNone_iff_eq_none, hreply, if_true, if_false,
    Option.isSome_none, Bool.false_eq_true, updatePort_updatePort]

/-- Settles O35, by the tests of a data write in their order. -/
theorem dataWriteAssemblesFrames : Obligations.DataWriteAssemblesFrames := by
  intro s p b x bytes complete put hs
  have hcomplete : frameComplete bytes = true ↔ complete := frameComplete_iff bytes
  simp only [exec_dataWrite hs]
  refine ⟨fun hin => ?_, fun hin hfull => ?_, fun hin hempty hheld => ?_, fun hin hempty hheld => ⟨fun hpart => ?_, fun hwhole hreply => ?_,
    fun hwhole hreply => ?_⟩⟩
  · exact congrArg _ (if_pos hin)
  · refine congrArg _ ((if_neg (by simp [x, hin])).trans (if_pos ?_))
    exact Option.isSome_iff_ne_none.mpr hfull
  · exact congrArg _ ((if_neg (by simp [x, hin])).trans ((if_neg (by simp [x, hempty])).trans (if_pos hheld)))
  · exact congrArg _ (writeByte_appends s p b hin hempty hheld (by simpa using mt hcomplete.mp hpart))
  · exact congrArg _ (writeByte_withholds hin hempty hheld (hcomplete.mpr hwhole) hreply)
  · exact congrArg _ (writeByte_executes s p b hin hempty hheld hreply (hcomplete.mpr hwhole))

/-! ### Status (R150, R154, R157, R178) -/

theorem bit_le (b : Bool) : bit b ≤ 1 := by cases b <;> decide

/-- A bit of a byte, from its value. -/
theorem ofNat_getLsbD {n i : Nat} {b : Bool} (hi : i < 8) (h : n / 2 ^ i % 2 = bit b) : (BitVec.ofNat 8 n).getLsbD i = b := by
  rw [BitVec.getLsbD_ofNat, Nat.testBit_eq_decide_div_mod_eq, h]
  cases b <;> simp [bit, hi]

/-- The eight flags of the status byte (R178). -/
theorem statusByte_getLsbD (x : Port) :
    x.statusByte.getLsbD 0 = x.pif ∧ x.statusByte.getLsbD 1 = x.poa ∧ x.statusByte.getLsbD 2 = x.reply.isSome ∧
    x.statusByte.getLsbD 3 = !x.queue.isEmpty ∧ x.statusByte.getLsbD 4 = (x.attendance == .lapsed) ∧ x.statusByte.getLsbD 5 = x.overrun ∧
    x.statusByte.getLsbD 6 = (x.dropped != 0) ∧ x.statusByte.getLsbD 7 = x.holding := by
  have h0 := bit_le x.pif
  have h1 := bit_le x.poa
  have h2 := bit_le x.reply.isSome
  have h3 := bit_le (!x.queue.isEmpty)
  have h4 := bit_le (x.attendance == .lapsed)
  have h5 := bit_le x.overrun
  have h6 := bit_le (x.dropped != 0)
  have h7 := bit_le x.holding
  refine ⟨?_, ?_, ?_, ?_, ?_, ?_, ?_, ?_⟩ <;> refine ofNat_getLsbD (by decide) ?_ <;> omega

/-- Settles O37, by the branches of a status write and bit by bit. -/
theorem statusWriteClearsTheInputSide : Obligations.StatusWriteClearsTheInputSide := by
  intro s p x
  refine ⟨fun hs hin => ?_, fun hs hin => ?_, fun hs => ?_, ?_⟩
  · rw [exec_statusWrite hs]
    exact congrArg _ (if_neg (by simp [x, hin]))
  · rw [exec_statusWrite hs]
    exact congrArg _ (if_pos hin)
  · exact congrArg Host.Outcome.next (if_neg hs)
  · have hbits := statusByte_getLsbD x
    obtain ⟨h0, h1, h2, h3, h4, h5, h6, h7⟩ := hbits
    refine ⟨h0, h1, h2, ?_, ?_, h5, ?_, h7, rfl, rfl, ?_⟩
    · rw [h3]
      simp
    · rw [h4]
      simp
    · rw [h6]
      simp
    · simp [Port.patn, Option.isSome_iff_ne_none, or_assoc]

/-! ### Judging and execution (R155, R161, R162) -/

theorem requestKindOf_kindByte (k : RequestKind) : requestKindOf (kindByte k) = some k := by cases k <;> rfl

theorem kindByte_range (k : RequestKind) : 1 ≤ (kindByte k).toNat ∧ (kindByte k).toNat ≤ 15 := by cases k <;> decide

/-- The bytes that name no request (R161, test 2). -/
theorem requestKindOf_eq_none {b : Byte} (h : b = 0 ∨ 15 < b.toNat) : requestKindOf b = none := by
  refine List.find?_eq_none.mpr fun k _ heq => ?_
  obtain ⟨hlow, hhigh⟩ := kindByte_range k
  rw [show kindByte k = b from by simpa using heq] at hlow hhigh
  rcases h with h | h
  · rw [h] at hlow
    exact absurd hlow (by decide)
  · omega

section

variable {s : State} {p : PortId} {kind length : Byte} {body : List Byte}

theorem judge_of_unknown (h : kind = 0 ∨ 15 < kind.toNat) :
    s.judge p kind length body = s.refuse (if 15 ≤ length.toNat then .malformed else .unknown) := by
  unfold State.judge
  rw [requestKindOf_eq_none h]

theorem judge_of_kind {k : RequestKind} (h : kindByte k = kind) :
    s.judge p kind length body = if allowsLength k length.toNat then s.perform p k body else s.malformed k body := by
  unfold State.judge
  rw [← h, requestKindOf_kindByte]

theorem malformed_of_ne {k : RequestKind} (h : k ≠ .setTrackMode) : s.malformed k body = s.refuse .malformed := if_neg h

/-- The answer to a complete frame (R155, steps 2 to 4, R156, R159). -/
theorem finishExecution_eq (x : Port) (reply : List Byte) (deadline : Option Time) : x.finishExecution reply deadline = { x with
    reply := some { bytes := reply, inOutput := x.inProgress.isNone }
    inProgress := x.inProgress.or (some { bytes := reply, position := 0, isReply := true })
    outReg := if x.inProgress.isNone then reply.head? else x.outReg
    assembler := x.holder.toList, holder := none, holding := false, attendance := .attended, executing := false, attendAt := deadline } := by
  cases hm : x.inProgress with
  | none =>
    rw [Port.finishExecution_reply_idle hm]
    rfl
  | some m =>
    rw [Port.finishExecution_reply_busy hm, ← hm]
    simp [hm]

theorem executeFrame_of_frame (h : (s.ports.get p).assembler = kind :: length :: body) :
    s.executeFrame p =
      let a := (s.updatePort p fun x => { x with executing := true }).judge p kind length body
      a.state.updatePort p fun x => x.finishExecution (replyBytes kind a.result a.body) (attendanceDeadline a.state.image p a.state.now) := by
  unfold State.executeFrame
  rw [h]

end

/-- Settles O36, by the tests of R161 and the end of an execution. -/
theorem frameIsJudgedAndAnswered : Obligations.FrameIsJudgedAndAnswered := by
  intro s p kind length body x a y reply attend lengths
  have hlengths : ∀ k, length.toNat ∈ lengths k ↔ allowsLength k length.toNat = true := fun k => by
    cases k <;> simp [lengths, allowsLength, or_assoc]
    omega
  have hdeadline : (if attend = 0 then none else some (a.state.clock.tb + BitVec.ofNat 32 (attend.toNat * 100000))) =
      attendanceDeadline a.state.image p a.state.now := (attendanceDeadline_eq a.state p).symm
  refine ⟨fun hframe => ?_, fun hunknown hlong => ?_, fun hunknown hshort => ?_, fun k hk hne hlen => ?_, fun k hk hlen => ?_, fun hk hlen => ?_⟩
  · rw [hdeadline, executeFrame_of_frame hframe]
    exact congrArg (fun z => a.state.setPorts (a.state.ports.set p z)) (finishExecution_eq ..)
  · rw [judge_of_unknown hunknown, if_pos hlong]
    rfl
  · rw [judge_of_unknown hunknown, if_neg (not_le.mpr hshort)]
    rfl
  · rw [judge_of_kind hk, if_neg (mt (hlengths k).mpr hlen), malformed_of_ne hne]
    rfl
  · rw [judge_of_kind hk, if_pos ((hlengths k).mp hlen)]
  · have hnot : ¬ allowsLength .setTrackMode length.toNat = true := by simpa [allowsLength] using hlen
    rw [judge_of_kind (k := .setTrackMode) hk.symm, if_neg hnot]
    have hbody : s.malformed .setTrackMode body = s.refuseMode (body.head?.bind trackOf) .malformed := if_pos rfl
    rw [hbody, State.refuseMode]
    congr 2
    split
    · rfl
    · rfl
    · rename_i hzero hone
      cases body with
      | nil => rfl
      | cons b rest =>
        have hnone : trackOf b = none :=
          (if_neg fun h => hzero rest (congrArg (· :: rest) h)).trans (if_neg fun h => hone rest (congrArg (· :: rest) h))
        simp [hnone, State.modeByte]

/-! ### Data reads (R156) -/

section

variable {s : State} {p : PortId}

theorem readByte_of_empty (hin : (s.ports.get p).inReset = false) (hout : (s.ports.get p).outReg = none) :
    s.readByte p = s.updatePort p fun x => { x with lastRead := 0 } := by
  unfold State.readByte
  simp only [hin, hout, Bool.false_eq_true, if_false]

theorem readByte_of_message {b : Byte} (hin : (s.ports.get p).inReset = false) (hout : (s.ports.get p).outReg = some b) :
    s.readByte p =
      if ((s.ports.get p).advance b).inProgress.isSome then s.updatePort p fun x => x.advance b
      else if ((s.ports.get p).advance b).holding && ((s.ports.get p).advance b).reply.isNone then
        (s.updatePort p fun x => x.advance b).executeFrame p
      else (s.updatePort p fun x => x.advance b).updatePort p Port.arbitrate := by
  unfold State.readByte
  simp only [hin, hout, updatePort_get, Bool.false_eq_true, if_false]

end

/-- Settles O38, by the position in the message and what waits at its end. -/
theorem dataReadDrainsTheMessage : Obligations.DataReadDrainsTheMessage := by
  intro s p x put hs
  have hexec := exec_dataRead hs p
  refine ⟨fun hin => hexec.trans (congrArg _ (if_pos hin)), fun hin hempty => hexec.trans (congrArg _ (readByte_of_empty hin hempty)),
    fun m b hin hm hout => ?_⟩
  intro done
  have hread := readByte_of_message hin hout
  have hend : ∀ hlast : m.bytes.length ≤ m.position + 1, s.readByte p =
      if done.holding && done.reply.isNone then (put done).executeFrame p else put done.arbitrate := fun hlast => by
    have hdone : x.advance b = done := Port.advance_last hm (not_lt.mpr hlast) b
    rw [hread, updatePort_updatePort, updatePort_eq, updatePort_eq, hdone]
    rfl
  refine ⟨fun hmore => hexec.trans (congrArg _ ?_), fun hlast hheld hreply => hexec.trans (congrArg _ ?_), fun hlast hfree => ?_⟩
  · rw [hread, if_pos (by rw [Port.advance_next hm hmore]; rfl)]
    exact congrArg put (Port.advance_next hm hmore b)
  · rw [hend hlast, if_pos]
    rw [hreply, show done.holding = true from hheld]
    rfl
  · have hload : s.readByte p = put done.arbitrate := by
      rw [hend hlast, if_neg]
      rcases hfree with hfree | hfree
      · rw [show done.holding = false from hfree]
        exact Bool.false_ne_true
      · simp [hfree]
    refine ⟨fun r hr hwaits => hexec.trans ?_, fun n rest hr hqueue => hexec.trans ?_, fun hr hqueue => hexec.trans ?_⟩
    · rw [hload, Port.arbitrate_reply rfl hr hwaits]
    · rw [hload, Port.arbitrate_notice rfl hr hqueue]
    · rw [hload, Port.arbitrate_empty rfl hr hqueue]

/-! ### Attendance and port reset (R159, R160) -/

/-- The byte a port last drove on its data lines stays. -/
structure SameLastRead (s u : State) : Prop where
  lastRead : ∀ p, (u.ports.get p).lastRead = (s.ports.get p).lastRead

theorem SameLastRead.refl (s : State) : SameLastRead s s := ⟨fun _ => rfl⟩

theorem SameLastRead.trans {s t u : State} (h : SameLastRead s t) (k : SameLastRead t u) : SameLastRead s u :=
  ⟨fun p => (k.lastRead p).trans (h.lastRead p)⟩

theorem Port.arbitrate_lastRead (x : Port) : x.arbitrate.lastRead = x.lastRead := by
  unfold Port.arbitrate
  split
  · rfl
  · split
    · rfl
    · split <;> rfl

theorem Port.offer_lastRead (x : Port) (n : Notice) : (x.offer n).lastRead = x.lastRead := by
  unfold Port.offer
  split
  · split
    · rfl
    · exact Port.arbitrate_lastRead _
  · rfl

theorem offer_lastRead (s : State) (named : PortId → Port → Bool) (n : Notice) : SameLastRead s (s.offer named n) :=
  ⟨fun p => by
    rw [offer_ports_get]
    split
    · exact Port.offer_lastRead ..
    · rfl⟩

theorem updateRecord_lastRead (s : State) (n : Nat) (f : HeadRecord → HeadRecord) : SameLastRead s (s.updateRecord n f) := ⟨fun _ => rfl⟩

theorem updateEntry_lastRead (s : State) (n : Nat) (st : Station) (holder : Option PortId) (f : StationEntry → StationEntry) :
    SameLastRead s (s.updateEntry n st holder f) := by
  unfold State.updateEntry
  split
  · exact .refl s
  · split
    · exact .refl s
    · split
      · dsimp only
        split
        · exact (updateRecord_lastRead ..).trans (offer_lastRead ..)
        · exact updateRecord_lastRead ..
      · exact .refl s

theorem testDone_lastRead (s : State) (n : Nat) : SameLastRead s (s.testDone n) := by
  unfold State.testDone
  split
  · exact .refl s
  · split
    · refine (updateRecord_lastRead s n fun r => { r with state := .done }).trans ?_
      change SameLastRead _ (State.offerRecordFinal _ n)
      unfold State.offerRecordFinal
      split
      · exact .refl _
      · exact offer_lastRead ..
    · exact .refl s

theorem cancelStation_lastRead (s : State) (gone : List Entry) (lost : Option PortId) (d : Bool) (n : Nat) (st : Station) :
    SameLastRead s (s.cancelStation gone lost d n st) := by
  unfold State.cancelStation
  dsimp only
  split
  · exact .refl s
  · split
    · exact (updateEntry_lastRead ..).trans (testDone_lastRead ..)
    · exact updateEntry_lastRead ..

theorem removeEntries_lastRead (s : State) (sel : Entry → Bool) (lost : Option PortId) (d : Bool) :
    SameLastRead s (s.removeEntries sel lost d) := by
  unfold State.removeEntries
  refine SameLastRead.trans (t := (s.setTriggers (s.triggers.filter fun e => !sel e)).setUnits
    (releaseBookings (s.triggers.filter sel) s.units)) ⟨fun _ => rfl⟩ ?_
  exact foldl_keeps SameLastRead.refl (fun _ _ _ => SameLastRead.trans)
    (fun s n => foldl_keeps SameLastRead.refl (fun _ _ _ => SameLastRead.trans)
      (fun s st => cancelStation_lastRead s _ lost d n st) _ s) _ _

/-- The entries of a port's stations, by the list of its stations or by the bindings. -/
theorem contains_stations (bindings : PerStation (Option PortId)) (p : PortId) (st : Station) :
    (Station.all.filter fun st => bindings.get st == some p).contains st = decide (bindings.get st = some p) := by
  rw [Bool.eq_iff_iff]
  simp [station_mem_all]

/-- Settles O39, by the branches of the three commands. -/
theorem attendanceLapsesAndPortsReset : Obligations.AttendanceLapsesAndPortsReset := by
  intro s p x put freed removed
  refine ⟨fun hs hdue => ?_, fun hs hin => ?_, fun hs hin => ?_, fun hs => ?_, fun hs hin => ?_, fun hs hin => ?_, fun hin => ?_⟩
  · exact congrArg Host.Outcome.next ((whenRunning_of_running hs _).trans (if_pos (isDue_of_eq hdue)))
  · refine congrArg Host.Outcome.next ((if_pos hs).trans ((if_neg (by simp [show (s.ports.get p).inReset = false from hin])).trans ?_))
    have hlast : (removed.ports.get p).lastRead = x.lastRead := by
      have hput : ((put { x with inReset := true }).ports.get p).lastRead = x.lastRead := by simp [put]
      exact ((removeEntries_lastRead ..).lastRead p).trans hput
    have hsel : (fun e : Entry => (Station.all.filter fun st => s.bindings.get st == some p).contains e.station) =
        fun e => decide (s.bindings.get e.station = some p) := funext fun e => contains_stations s.bindings p e.station
    have hreset : s.resetPort p = removed.updatePort p fun x => { Port.fresh true with lastRead := x.lastRead } := by
      simp only [removed, ← hsel]
      rfl
    rw [hreset, updatePort_eq, hlast]
    rfl
  · exact congrArg Host.Outcome.next ((if_pos hs).trans (if_pos hin))
  · exact congrArg Host.Outcome.next (if_neg hs)
  · refine congrArg Host.Outcome.next ((if_pos hin).trans ((if_pos hs).trans ?_))
    rw [State.restartAttendance, attendanceDeadline_eq, updatePort_updatePort]
    rfl
  · exact congrArg Host.Outcome.next ((if_pos hin).trans (if_neg hs))
  · exact congrArg Host.Outcome.next (if_neg (by simp [show (s.ports.get p).inReset = false from hin]))

/-! ### Requests as frames (R152, R178) -/

theorem writeByte_running {s : State} (hs : s.Running) (p : PortId) (b : Byte) : (s.writeByte p b).Running :=
  (congrArg Clock.power (writeByte_served s p b).clock).trans hs

/-- Bytes written one after another are one write of them all. -/
theorem execAll_dataWrites (s : State) (p : PortId) (bytes : List Byte) :
    execAll (bytes.map fun b => .dataWrite p b) s = .next (s.whenRunning fun s => s.writeBytes p bytes) := by
  by_cases hs : s.Running
  · rw [whenRunning_of_running hs]
    induction bytes generalizing s with
    | nil => rfl
    | cons b bytes ih =>
      rw [List.map_cons, execAll, exec_dataWrite hs]
      exact ih _ (writeByte_running hs p b)
  · have hidle : ∀ f : State → State, s.whenRunning f = s := fun f => if_neg hs
    rw [hidle]
    induction bytes with
    | nil => rfl
    | cons b bytes ih =>
      have hexec : exec (.dataWrite p b) s = .next s := congrArg Host.Outcome.next (hidle _)
      rw [List.map_cons, execAll, hexec]
      exact ih

theorem flatMap_edgeBytes (edges : List EdgeArg) : edges.flatMap edgeBytes = edges.flatMap fun e =>
    [e.edge, e.offset.extractLsb' 16 8, e.offset.extractLsb' 8 8, e.offset.extractLsb' 0 8] := by
  refine List.flatMap_congr fun e _ => ?_
  rw [edgeBytes, bytes3_toNat]

theorem length_flatMap_edgeBytes (edges : List EdgeArg) : (edges.flatMap edgeBytes).length = 4 * edges.length := by
  induction edges with
  | nil => rfl
  | cons e edges ih =>
    rw [List.flatMap_cons, List.length_append, ih, List.length_cons]
    show 4 + _ = _
    omega

/-- Settles O40: each request row writes the frame that requestBytes names. -/
theorem requestIsTheWritingOfItsFrame : Obligations.RequestIsTheWritingOfItsFrame := by
  intro c s p bytes h
  have hwrite : ∀ q k body, some (q, requestFrame k body) = some (p, bytes) →
      .next (s.request q k body) = execAll (bytes.map fun b => .dataWrite p b) s := fun q k body hframe => by
    obtain ⟨rfl, rfl⟩ : q = p ∧ requestFrame k body = bytes := by simpa using hframe
    exact (execAll_dataWrites s q (requestFrame k body)).symm
  cases c
  case nop q => exact hwrite q .nop [] h
  case subscribe q a b => exact hwrite q .subscribe [a, b] h
  case bind q a => exact hwrite q .bind [a] h
  case unbind q a => exact hwrite q .unbind [a] h
  case setTrackMode q a b => exact hwrite q .setTrackMode [a, b] h
  case readTrack q a => exact hwrite q .readTrack [a] h
  case readRecord q n => exact hwrite q .readRecord (bytes2 n.toNat) (by rw [bytes2_toNat]; exact h)
  case latestRecords q a => exact hwrite q .latestRecords [a] h
  case readOutputs q => exact hwrite q .readOutputs [] h
  case tagPassage q a tag => exact hwrite q .tagPassage (a :: bytes4 tag.toNat) (by rw [bytes4_toNat]; exact h)
  case relay q a l => exact hwrite q .relay (a :: l) h
  case inject q a edges =>
    refine hwrite q .inject (a :: edges.flatMap edgeBytes) ?_
    rw [requestFrame, List.length_cons, length_flatMap_edgeBytes, flatMap_edgeBytes]
    exact h
  case readFaults q => exact hwrite q .readFaults [] h
  case releaseFault q mask => exact hwrite q .releaseFault (bytes2 mask.toNat) (by rw [bytes2_toNat]; exact h)
  case readTime q => exact hwrite q .readTime [] h
  all_goals exact nomatch h

end Sys2Proof.Machine
end

section
/-! PROOFS. Reading requests and their bodies (chapters 9 and 11). O41, O42. -/

namespace Sys2Proof.Machine

/-! ### The bodies' layouts (R178, R179) -/

theorem bytes2_length (n : Nat) : (bytes2 n).length = 2 := rfl

theorem flatMap_length_const {α β : Type} (l : List α) {f : α → List β} {n : Nat} (h : ∀ a, (f a).length = n) :
    (l.flatMap f).length = n * l.length := by
  simp [List.length_flatMap, h, Nat.mul_comm]

theorem optTimeBytes_eq (t : Option Time) : optTimeBytes t = bigEndian (t.getD 0) := timeBytes_eq _

/-- A flag of a weight. -/
theorem weight_bit (b : Bool) (w : Nat) : w * bit b = if b then w else 0 := by cases b <;> simp [bit]

theorem recordSlot_length (e : StationEntry) : (recordSlot e).length = 7 := rfl

theorem latestNumbers_length (s : State) (t : Track) : (latestNumbers s t).length = s.table.records.countP fun r => r.track == t := by
  simp [latestNumbers, List.countP_eq_length_filter]

theorem latestBody_length (s : State) (t : Track) :
    (latestBody s t).length = 1 + 2 * s.table.records.countP fun r => r.track == t := by
  rw [latestBody, List.length_cons, flatMap_length_const _ bytes2_length, latestNumbers_length, Nat.add_comm]

theorem faultsBody_length (f : FaultCapture) : (faultsBody f).length = 11 := by
  unfold faultsBody
  cases f.held <;> rfl

theorem outputsBody_length (s : State) : (outputsBody s).length = 70 := rfl

theorem passageView_length (p : Option Passage) : (passageView p).length = 31 := by cases p <;> rfl

theorem trackBody_length (s : State) (t : Track) : (trackBody s t).length = 36 := by
  simp [trackBody, passageView_length]

/-- The 33 bytes of a READ_RECORD body before its slots. -/
def recordHead (r : HeadRecord) : List Byte :=
  bytes2 r.number ++ [.ofNat 8 (trackCode r.track + 2 * directionCode r.direction + 4 * bit r.test + 16 * r.entries.length)] ++ bytes2 r.passage ++
    [stateByte r, .ofNat 8 (r.strips + 16 * bit r.tTrail.isSome + 32 * bit r.expectedFar.isSome + 64 * bit r.residual.isSome
      + 128 * bit r.tag.isSome)] ++
    timeBytes r.tLead ++ optTimeBytes r.tTrail ++ bytes3 r.width ++ bytes2 r.length ++ bytes3 r.speed ++ optTimeBytes r.expectedFar ++
    residualBytes (r.residual.getD 0) ++ bytes4 (r.tag.getD 0).toNat

theorem recordHead_length (r : HeadRecord) : (recordHead r).length = 33 := rfl

theorem recordBody_eq (r : HeadRecord) :
    recordBody r = recordHead r ++ (r.entries.flatMap recordSlot ++ List.replicate (7 * (8 - r.entries.length)) 0) := by
  rw [recordBody, flatMap_length_const _ recordSlot_length, show 56 - 7 * r.entries.length = 7 * (8 - r.entries.length) by omega]
  rfl

theorem recordBody_length {r : HeadRecord} (h : r.entries.length ≤ 8) : (recordBody r).length = 89 := by
  rw [recordBody_eq, List.length_append, List.length_append, recordHead_length, flatMap_length_const _ recordSlot_length, List.length_replicate]
  omega

/-- Settles O42, body by body. -/
theorem readingBodiesHaveTheirLayout : Obligations.ReadingBodiesHaveTheirLayout := by
  intro s t r pair triple flag mode unit direction passage beam held station flashUnit mine state confirmation residual head slot
  have hdirection : ∀ d, directionCode d = direction d := fun d => by cases d <;> rfl
  have hflag : ∀ b w, w * bit b = flag b w := weight_bit
  have hhead : recordHead r = head := by
    have htrack : trackCode r.track = (match r.track with | .t0 => 0 | .t1 => 1) := by cases r.track <;> rfl
    have hstate : recordStateCode r.state = state := by simp only [state]; cases r.state <;> rfl
    have hconfirmation : confirmationCode r.confirmation = confirmation := by simp only [confirmation]; cases r.confirmation <;> rfl
    simp only [recordHead, head, stateByte, residualBytes, hstate, hconfirmation, hdirection, hflag, timeBytes_eq, optTimeBytes_eq, bytes4_toNat,
      bytes2_toNat, htrack]
    rfl
  have hslot : ∀ x, recordSlot x = slot x := fun x => by
    simp only [recordSlot, slot, outcomesByte, hflag, optTimeBytes_eq, maskByte_eq]
  refine ⟨?_, trackBody_length s t, ?_, faultsBody_length _, ?_, outputsBody_length s, ?_, ?_, fun hentries => ⟨?_, recordBody_length hentries⟩⟩
  · have hmode : BitVec.ofNat 8 (modeCode (s.mode t)) = mode := by simp only [mode]; cases s.mode t <;> rfl
    have hunit : BitVec.ofNat 8 (passageStateCode (s.passages.get t)) = unit := by
      simp only [unit]
      cases s.passages.get t with
      | none => rfl
      | some p => cases h : p.reversed <;> simp [passageStateCode, h]
    have hbeam : ∀ u, headUnitByte u = beam u := fun u => by
      simp only [headUnitByte, beam]
      rw [Nat.add_comm]
      cases u.role <;> cases u.state <;> rfl
    have hpassage : passageView (s.passages.get t) = passage := by
      simp only [passage]
      cases s.passages.get t with
      | none => rfl
      | some p =>
        simp only [passageView, hdirection, hflag, timeBytes_eq, bytes4_toNat]
        rfl
    rw [trackBody, hmode, hunit, hpassage, hbeam, hbeam]
    rfl
  · refine congrArg (bytes2 s.faults.flags.toNat ++ ·) ?_
    simp only [held]
    cases s.faults.held with
    | none => rfl
    | some f =>
      have hitem : itemValue f.item = (match f.item with
          | .none => 0 | .input (.wheel .w1) => 0 | .input (.wheel .w2) => 1 | .input (.beam .ha) => 2 | .input (.beam .hb) => 3
          | .record n => n) := by
        rcases f.item with _ | (w | b) | n
        · rfl
        · cases w <;> rfl
        · cases b <;> rfl
        · rfl
      have htrack : trackByte f.track = (match f.track with | none => 0xFF | some .t0 => 0 | some .t1 => 1) := by
        rcases f.track with _ | t
        · rfl
        · cases t <;> rfl
      simp only [faultBytes, timeBytes_eq, hitem, htrack]
      cases f.kind <;> rfl
  · have hstation : ∀ st, stationSlot s st = station st := fun st => by
      cases hbinding : s.bindings.get st <;> simp only [stationSlot, station, hbinding, hflag, optTimeBytes_eq]
    have hunits : ∀ f, unitSlot s f = flashUnit f := fun f => by
      simp only [unitSlot, flashUnit, hflag, optTimeBytes_eq]
      cases (s.units.get f).state <;> rfl
    rw [outputsBody, List.flatMap_congr fun st _ => hstation st, List.flatMap_congr fun f _ => hunits f]
  · simp only [latestBody, latestNumbers, mine, List.length_reverse, List.length_map, ← List.map_reverse, List.flatMap_map]
    rfl
  · rw [← hhead]
    exact recordHead_length r
  · rw [recordBody_eq, hhead, List.flatMap_congr fun x _ => hslot x]
    exact (List.append_assoc ..).symm

/-! ### Requests that change nothing (R155) -/

theorem trackOf_eq_none {b : Byte} (h : 1 < b.toNat) : trackOf b = none := by
  unfold trackOf
  rw [if_neg fun hb => by simp [hb] at h, if_neg fun hb => by simp [hb] at h]

theorem trackOf_trackCode (t : Track) : trackOf (.ofNat 8 (trackCode t)) = some t := by cases t <;> rfl

section

variable {s : State} {p : PortId} {k : RequestKind} {body out : List Byte} {r : Result}

/-- A request that performing answers in the state it found is answered, and changes nothing else. -/
theorem request_keeps (hs : s.Running) (hx : (s.ports.get p).Ready) (hl : body.length ≤ 14) (hk : allowsLength k body.length = true)
    (hperform : ∀ frame, (s.performing p frame).perform p k body = { result := r, body := out, state := s.performing p frame }) :
    .next (s.request p k body) = (.next (s.answers p (kindByte k :: resultCode r :: .ofNat 8 out.length :: out)) :
      Host.Outcome State Fault Refusal) := by
  have ⟨_, hholder, hholding, _, _, hexec⟩ := hx
  exact congrArg Host.Outcome.next (request_answers s s p k body out r hs hx hl hk (hperform _) hholder hholding hexec)

end

theorem readTrack_badArg {s : State} {b : Byte} (h : 1 < b.toNat) : s.readTrack b = s.refuse .badArg := by
  unfold State.readTrack
  rw [trackOf_eq_none h]

theorem latestRecords_badArg {s : State} {b : Byte} (h : 1 < b.toNat) : s.latestRecords b = s.refuse .badArg := by
  unfold State.latestRecords
  rw [trackOf_eq_none h]

theorem readTrack_of_track (s : State) (t : Track) : s.readTrack (.ofNat 8 (trackCode t)) = s.grant (trackBody s t) := by
  unfold State.readTrack
  rw [trackOf_trackCode]

theorem latestRecords_of_track (s : State) (t : Track) : s.latestRecords (.ofNat 8 (trackCode t)) = s.grant (latestBody s t) := by
  unfold State.latestRecords
  rw [trackOf_trackCode]

theorem valueOf_bytes2 (n : BitVec 16) : valueOf (bytes2 n.toNat) = n.toNat := by
  have := n.isLt
  simp only [bytes2, valueOf, List.foldl_cons, List.foldl_nil, BitVec.toNat_ofNat]
  omega

theorem readRecord_of_none {s : State} {n : Nat} (h : s.record n = none) : s.readRecord n = s.refuse .notFound := by
  unfold State.readRecord
  rw [h]

theorem readRecord_of_some {s : State} {n : Nat} {r : HeadRecord} (h : s.record n = some r) : s.readRecord n = s.grant (recordBody r) := by
  unfold State.readRecord
  rw [h]

/-- Settles O41: each performance grants or refuses in the state it found. -/
theorem readingRequestsAnswerAndChangeNothing : Obligations.ReadingRequestsAnswerAndChangeNothing := by
  intro s p hs hx answered
  refine ⟨request_keeps (k := .nop) (out := []) (r := .accepted) hs hx (body := []) (by decide) rfl fun _ => rfl, ?_, ?_, ?_, fun b hb => ⟨?_, ?_⟩, fun t => ⟨?_, ?_⟩, fun n hn => ?_,
    fun n r hdistinct hr hn hentries => ?_⟩
  · have h := request_keeps (k := .readTime) (out := timeBytes s.clock.tb) hs hx (body := []) (by decide) rfl fun _ => rfl
    rwa [timeBytes_eq] at h
  · have h := request_keeps (k := .readFaults) (out := faultsBody s.faults) hs hx (body := []) (by decide) rfl fun _ => rfl
    rwa [faultsBody_length] at h
  · exact request_keeps (k := .readOutputs) (out := outputsBody s) hs hx (body := []) (by decide) rfl fun _ => rfl
  · exact request_keeps (k := .readTrack) (out := []) (r := .badArg) hs hx (body := [b]) (Nat.succ_le_succ (Nat.zero_le _)) rfl fun _ => readTrack_badArg hb
  · exact request_keeps (k := .latestRecords) (out := []) (r := .badArg) hs hx (body := [b]) (Nat.succ_le_succ (Nat.zero_le _)) rfl fun _ => latestRecords_badArg hb
  · have h := request_keeps (k := .readTrack) (out := trackBody s t) hs hx (body := [.ofNat 8 (trackCode t)]) (Nat.succ_le_succ (Nat.zero_le _)) rfl
      fun frame => readTrack_of_track (s.performing p frame) t
    rwa [trackBody_length] at h
  · have h := request_keeps (k := .latestRecords) (out := latestBody s t) hs hx (body := [.ofNat 8 (trackCode t)]) (Nat.succ_le_succ (Nat.zero_le _)) rfl
      fun frame => latestRecords_of_track (s.performing p frame) t
    rwa [latestBody_length] at h
  · refine request_keeps (k := .readRecord) (out := []) (r := .notFound) hs hx (body := bytes2 n.toNat) (by simp [bytes2]) rfl fun frame => ?_
    exact Eq.trans (congrArg (State.readRecord _) (valueOf_bytes2 n)) (readRecord_of_none (record_none_iff.mpr hn))
  · have h := request_keeps (k := .readRecord) (out := recordBody r) hs hx (body := bytes2 n.toNat) (by simp [bytes2]) rfl fun frame =>
      Eq.trans (congrArg (State.readRecord _) (valueOf_bytes2 n)) (readRecord_of_some (s := s.performing p frame) (hn ▸ record_of_mem hdistinct hr))
    rwa [recordBody_length hentries] at h

end Sys2Proof.Machine
end

section
/-! PROOFS. Requests that change registers, bindings, modes and injection queues (chapters 7 and 9). O43, O44, O45, O49. -/

namespace Sys2Proof.Machine

/-! ### Bytes and codes of requests (R178) -/

theorem append_extractLsb' {w a b : Nat} (x : BitVec w) (k : Nat) : x.extractLsb' (k + b) a ++ x.extractLsb' k b = x.extractLsb' k (a + b) := by
  refine BitVec.eq_of_getLsbD_eq fun i hi => ?_
  rw [BitVec.getLsbD_append, BitVec.getLsbD_extractLsb', BitVec.getLsbD_extractLsb', BitVec.getLsbD_extractLsb']
  by_cases h : i < b
  · simp [h, hi]
  · have hk : k + b + (i - b) = k + i := by omega
    have ha : i - b < a := by omega
    simp [h, hi, hk, ha]

theorem append_bytes2 (x : BitVec 16) : (x.extractLsb' 8 8 ++ x.extractLsb' 0 8 : BitVec 16) = x :=
  (append_extractLsb' x 0).trans (BitVec.extractLsb'_eq_self)

theorem append_bytes3 (x : BitVec 24) : (x.extractLsb' 16 8 ++ x.extractLsb' 8 8 ++ x.extractLsb' 0 8 : BitVec 24) = x := by
  rw [append_extractLsb' (a := 8) (b := 8) x 8]
  exact (append_extractLsb' x 0).trans BitVec.extractLsb'_eq_self

theorem append_bytes4 (x : BitVec 32) :
    (x.extractLsb' 24 8 ++ x.extractLsb' 16 8 ++ x.extractLsb' 8 8 ++ x.extractLsb' 0 8 : BitVec 32) = x := by
  rw [append_extractLsb' (a := 8) (b := 8) x 16, append_extractLsb' (a := 16) (b := 8) x 8]
  exact (append_extractLsb' x 0).trans BitVec.extractLsb'_eq_self

theorem stationOf_stationCode (st : Station) : stationOf (.ofNat 8 (stationCode st)) = some st := by cases st <;> rfl

theorem stationOf_eq_none {b : Byte} (h : 8 ≤ b.toNat) : stationOf b = none := by
  refine List.find?_eq_none.mpr fun st _ => ?_
  have hne : b.toNat ≠ stationCode st := by cases st <;> simp only [stationCode] <;> omega
  simpa using hne

theorem modeOf_modeCode (m : Mode) : modeOf (.ofNat 8 (modeCode m)) = some m := by cases m <;> rfl

theorem modeOf_eq_none {b : Byte} (h : 2 < b.toNat) : modeOf b = none := by
  have hne : ∀ c : Byte, c.toNat ≤ 2 → b ≠ c := fun c hc hb => by subst hb; omega
  unfold modeOf
  rw [if_neg (hne 0 (by decide)), if_neg (hne 1 (by decide)), if_neg (hne 2 (by decide))]

/-! ### A request on a ready port that changes the state (R155) -/

section

variable {s : State} {p : PortId} {k : RequestKind} {body out : List Byte} {r : Result}

/-- A request is answered in the state `t` that performing it leaves, where that is as ready at the port as the state found. -/
theorem request_leaves (t : State) (hs : s.Running) (hx : (s.ports.get p).Ready) (hl : body.length ≤ 14) (hk : allowsLength k body.length = true)
    (hports : (t.ports.get p).holder = (s.ports.get p).holder ∧ (t.ports.get p).holding = (s.ports.get p).holding ∧
      (t.ports.get p).executing = (s.ports.get p).executing)
    (hperform : ∀ frame, (s.performing p frame).perform p k body = { result := r, body := out, state := t.performing p frame }) :
    .next (s.request p k body) = (.next (t.answers p (kindByte k :: resultCode r :: .ofNat 8 out.length :: out)) :
      Host.Outcome State Fault Refusal) := by
  have ⟨_, hholder, hholding, _, _, hexec⟩ := hx
  obtain ⟨hholder', hholding', hexec'⟩ := hports
  exact congrArg Host.Outcome.next (request_answers s t p k body out r hs hx hl hk (hperform _) (hholder'.trans hholder)
    (hholding'.trans hholding) (hexec'.trans hexec))

/-- A request is answered in whatever state performing it leaves. -/
theorem request_performs {t : State} (hs : s.Running) (hx : (s.ports.get p).Ready) (hl : body.length ≤ 14)
    (hk : allowsLength k body.length = true)
    (hperform : (s.performing p (requestFrame k body)).perform p k body = { result := r, body := out, state := t }) :
    .next (s.request p k body) = (.next (t.performed p (kindByte k :: resultCode r :: .ofNat 8 out.length :: out)) :
      Host.Outcome State Fault Refusal) := by
  refine congrArg Host.Outcome.next ((request_performed s p k body hs hx hl hk).trans ?_)
  rw [hperform]

end

/-! ### SUBSCRIBE, BIND, RELEASE_FAULT and TAG_PASSAGE -/

/-- A change of the port that leaves the frame in execution alone commutes with its completion. -/
theorem performing_updatePort (s : State) (p : PortId) (frame : List Byte) {f : Port → Port}
    (hf : ∀ x, f { x with assembler := frame, executing := true } = { f x with assembler := frame, executing := true }) :
    (s.performing p frame).updatePort p f = (s.updatePort p f).performing p frame := by
  rw [performing_eq_updatePort, performing_eq_updatePort, updatePort_updatePort, updatePort_updatePort]
  exact congrArg (s.updatePort p) (funext hf)

theorem subscribe_badArg {s : State} {p : PortId} {tracks classes : Byte} (h : 4 ≤ tracks.toNat ∨ 32 ≤ classes.toNat) :
    s.subscribe p tracks classes = s.refuse .badArg := if_neg fun ⟨_, _⟩ => by omega

theorem bindStation_badArg {s : State} {p : PortId} {b : Byte} (h : 8 ≤ b.toNat) : s.bindStation p b = s.refuse .badArg := by
  unfold State.bindStation
  rw [stationOf_eq_none h]

section

variable {s : State} {p : PortId} {st : Station}

theorem bindStation_of_none (h : s.bindings.get st = none) : s.bindStation p (.ofNat 8 (stationCode st)) =
    (s.setBindings (s.bindings.set st (some p))).grant (bindBody (.ofNat 8 (stationCode st)) p) := by
  unfold State.bindStation
  simp only [stationOf_stationCode, h]

theorem bindStation_of_own (h : s.bindings.get st = some p) : s.bindStation p (.ofNat 8 (stationCode st)) =
    s.grant (bindBody (.ofNat 8 (stationCode st)) p) := by
  unfold State.bindStation
  simp only [stationOf_stationCode, h, if_true]

theorem bindStation_of_other {q : PortId} (hq : q ≠ p) (h : s.bindings.get st = some q) : s.bindStation p (.ofNat 8 (stationCode st)) =
    { result := .held, body := bindBody (.ofNat 8 (stationCode st)) q, state := s } := by
  unfold State.bindStation
  simp only [stationOf_stationCode, h, if_neg hq]

theorem unbindStation_badArg {b : Byte} (h : 8 ≤ b.toNat) : s.unbindStation p b = s.refuse .badArg := by
  unfold State.unbindStation
  rw [stationOf_eq_none h]

theorem unbindStation_notBound (h : s.bindings.get st ≠ some p) : s.unbindStation p (.ofNat 8 (stationCode st)) = s.refuse .notBound := by
  unfold State.unbindStation
  simp only [stationOf_stationCode, if_neg h]

theorem unbindStation_of_own (h : s.bindings.get st = some p) : s.unbindStation p (.ofNat 8 (stationCode st)) =
    (s.loseBinding p st).grant [.ofNat 8 (stationCode st), .ofNat 8 (s.triggers.countP fun e => e.station == st)] := by
  unfold State.unbindStation
  simp only [stationOf_stationCode, if_pos h]

end

section

variable {s : State} {t : Track} {tag : BitVec 32}

theorem tagPassage_badArg {b : Byte} (h : 1 < b.toNat) : s.tagPassage b tag = s.refuse .badArg := by
  unfold State.tagPassage
  rw [trackOf_eq_none h]

theorem tagPassage_of_idle (h : s.passages.get t = none) : s.tagPassage (.ofNat 8 (trackCode t)) tag = s.refuse .noPassage := by
  unfold State.tagPassage
  simp only [trackOf_trackCode, h]

theorem tagPassage_of_tagged {o : Passage} (h : s.passages.get t = some o) (ho : o.tag ≠ none) :
    s.tagPassage (.ofNat 8 (trackCode t)) tag = s.refuse .tagged := by
  unfold State.tagPassage
  simp only [trackOf_trackCode, h, Option.isSome_iff_ne_none.mpr ho, if_true]

theorem tagPassage_of_untagged {o : Passage} (h : s.passages.get t = some o) (ho : o.tag = none) :
    s.tagPassage (.ofNat 8 (trackCode t)) tag =
      ((s.setPassages (s.passages.set t (some { o with tag := some tag }))).mapRecords fun r =>
        if r.track = t ∧ r.ofOpenPassage = true then { r with tag := some tag } else r).grant [] := by
  unfold State.tagPassage
  simp only [trackOf_trackCode, h, ho, Option.isSome_none, Bool.false_eq_true, if_false]
  rfl

end

theorem perform_tagPassage (s : State) (p : PortId) (b : Byte) (tag : BitVec 32) :
    s.perform p .tagPassage (b :: bytes4 tag.toNat) = s.tagPassage b tag := by
  rw [bytes4_toNat]
  exact congrArg (s.tagPassage b) (append_bytes4 tag)

/-- Settles O43, request by request. -/
theorem registersOfRequestsAreUpdated : Obligations.RegistersOfRequestsAreUpdated := by
  intro s p hs hx answered
  have hone : ∀ b : Byte, [b].length ≤ 14 := fun _ => Nat.succ_le_succ (Nat.zero_le _)
  have htwo : ∀ a b : Byte, [a, b].length ≤ 14 := fun _ _ => Nat.succ_le_succ (Nat.succ_le_succ (Nat.zero_le _))
  have hfive : ∀ (b : Byte) (tag : BitVec 32), (b :: bytes4 tag.toNat).length ≤ 14 := fun _ _ => by simp [bytes4]
  refine ⟨fun tracks classes => ⟨fun ht hc => ?_, fun h => ?_⟩, fun b hb => ?_, fun st => ⟨fun h => ?_, fun h => ?_, fun q hq h => ?_⟩,
    fun mask => ⟨fun h => ?_, fun h => ?_⟩, fun b tag hb => ?_, fun t tag => ⟨fun h => ?_, fun o h ho => ?_, fun o h ho => ?_⟩⟩
  · refine request_leaves (k := .subscribe) (r := .accepted) (out := [tracks, classes]) _ hs hx (htwo ..) rfl ?_ fun frame => ?_
    · rw [setPorts_ports, PerPort.get_modify, if_pos rfl]
      exact ⟨rfl, rfl, rfl⟩
    · exact (if_pos ⟨ht, hc⟩).trans (congrArg (State.grant · _) (performing_updatePort s p frame fun _ => rfl))
  · exact request_keeps (k := .subscribe) (r := .badArg) (out := []) hs hx (htwo ..) rfl fun _ => subscribe_badArg h
  · exact request_keeps (k := .bind) (r := .badArg) (out := []) hs hx (hone _) rfl fun _ => bindStation_badArg hb
  · exact request_leaves (k := .bind) (r := .accepted) (out := bindBody _ p) _ hs hx (hone _) rfl ⟨rfl, rfl, rfl⟩
      fun frame => bindStation_of_none (s := s.performing p frame) h
  · exact request_keeps (k := .bind) (r := .accepted) (out := bindBody _ p) hs hx (hone _) rfl
      fun frame => bindStation_of_own (s := s.performing p frame) h
  · exact request_keeps (k := .bind) (r := .held) (out := bindBody _ q) hs hx (hone _) rfl
      fun frame => bindStation_of_other (s := s.performing p frame) hq h
  · intro flags
    refine request_leaves (k := .releaseFault) (r := .accepted) (out := bytes2 flags.toNat) _ hs hx (htwo ..) rfl ⟨rfl, rfl, rfl⟩
      fun frame => ?_
    refine Eq.trans (congrArg (State.perform _ p .releaseFault) (bytes2_toNat mask)) ?_
    exact Eq.trans (congrArg (State.releaseFault _) (append_bytes2 mask)) (if_pos h)
  · refine request_keeps (k := .releaseFault) (r := .badArg) (out := []) hs hx (htwo ..) rfl fun frame => ?_
    refine Eq.trans (congrArg (State.perform _ p .releaseFault) (bytes2_toNat mask)) ?_
    exact Eq.trans (congrArg (State.releaseFault _) (append_bytes2 mask)) (if_neg (Nat.not_lt.mpr h))
  · refine request_keeps (k := .tagPassage) (r := .badArg) (out := []) hs hx (hfive ..) rfl fun frame => ?_
    exact (perform_tagPassage ..).trans (tagPassage_badArg hb)
  · refine request_keeps (k := .tagPassage) (r := .noPassage) (out := []) hs hx (hfive ..) rfl fun frame => ?_
    exact (perform_tagPassage ..).trans (tagPassage_of_idle (s := s.performing p frame) h)
  · refine request_keeps (k := .tagPassage) (r := .tagged) (out := []) hs hx (hfive ..) rfl fun frame => ?_
    exact (perform_tagPassage ..).trans (tagPassage_of_tagged (s := s.performing p frame) h ho)
  · refine request_leaves (k := .tagPassage) (r := .accepted) (out := []) _ hs hx (hfive ..) rfl ⟨rfl, rfl, rfl⟩ fun frame => ?_
    exact (perform_tagPassage ..).trans (tagPassage_of_untagged (s := s.performing p frame) h ho)


/-! ### UNBIND (R166) and SET_TRACK_MODE (R137) -/

/-- Settles O44, by the station byte and its holder. -/
theorem unbindFreesTheStation : Obligations.UnbindFreesTheStation := by
  intro s p hs hx
  have hone : ∀ b : Byte, [b].length ≤ 14 := fun _ => Nat.succ_le_succ (Nat.zero_le _)
  refine ⟨fun b hb => ?_, fun st => ⟨fun h => ?_, fun h => ?_⟩⟩
  · exact request_keeps (k := .unbind) (r := .badArg) (out := []) hs hx (hone _) rfl fun _ => unbindStation_badArg hb
  · exact request_keeps (k := .unbind) (r := .notBound) (out := []) hs hx (hone _) rfl
      fun frame => unbindStation_notBound (s := s.performing p frame) h
  · exact request_performs (k := .unbind) (r := .accepted) (out := [_, _]) hs hx (hone _) rfl (unbindStation_of_own h)

section

variable {s : State} {t : Track} {m : Mode}

theorem setTrackModeBytes_noTrack {a b : Byte} (h : 1 < a.toNat) :
    s.setTrackModeBytes a b = { result := .badArg, body := [0xFF], state := s } := by
  unfold State.setTrackModeBytes
  rw [trackOf_eq_none h]
  rfl

theorem setTrackModeBytes_noMode {b : Byte} (h : 2 < b.toNat) : s.setTrackModeBytes (.ofNat 8 (trackCode t)) b =
    { result := .badArg, body := [.ofNat 8 (modeCode (s.mode t))], state := s } := by
  unfold State.setTrackModeBytes
  rw [trackOf_trackCode, modeOf_eq_none h]
  rfl

theorem setTrackModeBytes_of_codes :
    s.setTrackModeBytes (.ofNat 8 (trackCode t)) (.ofNat 8 (modeCode m)) = s.setTrackMode t m := by
  unfold State.setTrackModeBytes
  rw [trackOf_trackCode, modeOf_modeCode]

theorem setTrackMode_of_held (h : m = s.mode t) : s.setTrackMode t m = s.grant [.ofNat 8 (modeCode (s.mode t))] := if_pos h

theorem setTrackMode_busy (h : m ≠ s.mode t) (hmode : s.mode t ≠ .out) (hopen : s.passages.get t ≠ none) :
    s.setTrackMode t m = { result := .busy, body := [.ofNat 8 (modeCode (s.mode t))], state := s } :=
  (if_neg h).trans (if_pos ⟨hmode, Option.isSome_iff_ne_none.mpr hopen⟩)

theorem setTrackMode_from_out (h : m ≠ s.mode t) (hmode : s.mode t = .out) : s.setTrackMode t m = match s.validate t with
    | some c => { result := .configInvalid, body := [.ofNat 8 (modeCode (s.mode t)), .ofNat 8 c.code, c.item], state := s }
    | none => (s.changeMode t m).grant [.ofNat 8 (modeCode m)] :=
  (if_neg h).trans ((if_neg fun ⟨hne, _⟩ => hne hmode).trans (if_pos hmode))

theorem setTrackMode_invalid {c : Check} (h : m ≠ s.mode t) (hmode : s.mode t = .out) (hinvalid : s.validate t = some c) :
    s.setTrackMode t m =
      { result := .configInvalid, body := [.ofNat 8 (modeCode (s.mode t)), .ofNat 8 c.code, c.item], state := s } := by
  rw [setTrackMode_from_out h hmode, hinvalid]

theorem setTrackMode_changes (h : m ≠ s.mode t) (hidle : s.mode t ≠ .out → s.passages.get t = none)
    (hvalid : s.mode t = .out → s.validate t = none) : s.setTrackMode t m = (s.changeMode t m).grant [.ofNat 8 (modeCode m)] := by
  by_cases hmode : s.mode t = .out
  · rw [setTrackMode_from_out h hmode, hvalid hmode]
  · refine (if_neg h).trans ((if_neg fun ⟨_, hopen⟩ => ?_).trans (if_neg hmode))
    simp [hidle hmode] at hopen

end

/-- Settles O45, by the tests of R137 in their order. -/
theorem setTrackModeJudgesAndChanges : Obligations.SetTrackModeJudgesAndChanges := by
  intro s p t m hs hx code track held c
  have htwo : ∀ a b : Byte, [a, b].length ≤ 14 := fun _ _ => Nat.succ_le_succ (Nat.succ_le_succ (Nat.zero_le _))
  have hcode : ∀ m, code m = .ofNat 8 (modeCode m) := fun m => by cases m <;> rfl
  have hheld : held = .ofNat 8 (modeCode (s.mode t)) := hcode _
  have hc : c = .setTrackMode p (.ofNat 8 (trackCode t)) (.ofNat 8 (modeCode m)) := congrArg (Instr.setTrackMode p track) (hcode m)
  clear_value code held c
  subst hheld hc
  have hbytes : ∀ frame, (s.performing p frame).perform p .setTrackMode [.ofNat 8 (trackCode t), .ofNat 8 (modeCode m)] =
      (s.performing p frame).setTrackMode t m := fun _ => setTrackModeBytes_of_codes
  refine ⟨fun a b ha => ?_, fun b hb => ?_, fun h => ?_, fun h hmode hopen => ?_, fun x h hmode hx' => ?_, fun h hidle hvalid => ?_⟩
  · exact request_keeps (k := .setTrackMode) (r := .badArg) (out := [0xFF]) hs hx (htwo ..) rfl
      fun frame => setTrackModeBytes_noTrack ha
  · exact request_keeps (k := .setTrackMode) (r := .badArg) (out := [_]) hs hx (htwo ..) rfl
      fun frame => setTrackModeBytes_noMode (s := s.performing p frame) (t := t) hb
  · exact request_keeps (k := .setTrackMode) (r := .accepted) (out := [_]) hs hx (htwo ..) rfl
      fun frame => (hbytes frame).trans (setTrackMode_of_held (s := s.performing p frame) h)
  · exact request_keeps (k := .setTrackMode) (r := .busy) (out := [_]) hs hx (htwo ..) rfl
      fun frame => (hbytes frame).trans (setTrackMode_busy (s := s.performing p frame) h hmode hopen)
  · exact request_keeps (k := .setTrackMode) (r := .configInvalid) (out := [_, _, _]) hs hx (htwo ..) rfl
      fun frame => (hbytes frame).trans (setTrackMode_invalid (s := s.performing p frame) h hmode hx')
  · rw [hcode]
    exact request_performs (k := .setTrackMode) (r := .accepted) (out := [_]) hs hx (htwo ..) rfl
      ((hbytes _).trans (setTrackMode_changes h hidle hvalid))

/-! ### INJECT (R145, R146) -/

theorem injectArgs_flatMap (edges : List EdgeArg) : injectArgs (edges.flatMap edgeBytes) = edges := by
  induction edges with
  | nil => rfl
  | cons e edges ih =>
    rw [List.flatMap_cons, edgeBytes, bytes3_toNat]
    exact congrArg₂ (fun x l => { edge := e.edge, offset := x : EdgeArg } :: l) (append_bytes3 e.offset) ih

theorem edgeNamed_iff (e : EdgeArg) : edgeNamed e = true ↔ ∀ k, 2 ≤ k → k ≤ 6 → e.edge.getLsbD k = false := by
  have hmask : ∀ k, k < 8 → ((0x7C : Byte).getLsbD k = true ↔ 2 ≤ k ∧ k ≤ 6) := by decide
  rw [edgeNamed, beq_iff_eq]
  constructor
  · intro h k hlow hhigh
    have hbit := congrArg (BitVec.getLsbD · k) h
    rw [BitVec.getLsbD_and, (hmask k (by omega)).mpr ⟨hlow, hhigh⟩, Bool.and_true] at hbit
    exact hbit.trans BitVec.getLsbD_zero
  · intro h
    refine BitVec.eq_of_getLsbD_eq fun k hk => ?_
    rw [BitVec.getLsbD_and]
    by_cases hin : 2 ≤ k ∧ k ≤ 6
    · rw [h k hin.1 hin.2, Bool.false_and]
      exact BitVec.getLsbD_zero.symm
    · rw [Bool.eq_false_iff.mpr (mt (hmask k hk).mp hin), Bool.and_false]
      exact BitVec.getLsbD_zero.symm

theorem offsetsRise_iff (edges : List EdgeArg) : offsetsRise edges = true ↔ edges.Pairwise fun a b => a.offset.toNat ≤ b.offset.toNat := by
  have hchain : offsetsRise edges = true ↔ edges.IsChain fun a b => a.offset.toNat ≤ b.offset.toNat := by
    induction edges with
    | nil => simp [offsetsRise]
    | cons a rest ih =>
      cases rest with
      | nil => simp [offsetsRise]
      | cons b rest => rw [offsetsRise, Bool.and_eq_true, decide_eq_true_eq, ih, List.isChain_cons_cons]
  have : IsTrans EdgeArg fun a b => a.offset.toNat ≤ b.offset.toNat := ⟨fun _ _ _ => Nat.le_trans⟩
  rw [hchain, List.isChain_iff_pairwise]

section

variable {s : State} {t : Track} {edges : List EdgeArg}

theorem inject_noTrack {b : Byte} (h : 1 < b.toNat) : s.inject b edges = s.refuse .badArg := by
  unfold State.inject
  rw [trackOf_eq_none h]

/-- The edges of an INJECT that are well formed: input and level alone named, offsets of at least 1 that do not fall (R146). -/
def ValidEdges (edges : List EdgeArg) : Prop :=
  (∀ e ∈ edges, (∀ k, 2 ≤ k → k ≤ 6 → e.edge.getLsbD k = false) ∧ e.offset ≠ 0) ∧
    edges.Pairwise fun a b => a.offset.toNat ≤ b.offset.toNat

theorem validEdges_iff : (!(edges.all fun e => edgeNamed e && e.offset != 0) || !offsetsRise edges) = true ↔ ¬ ValidEdges edges := by
  have hall : (edges.all fun e => edgeNamed e && e.offset != 0) = true ↔
      ∀ e ∈ edges, (∀ k, 2 ≤ k → k ≤ 6 → e.edge.getLsbD k = false) ∧ e.offset ≠ 0 := by
    simp only [List.all_eq_true, Bool.and_eq_true, edgeNamed_iff, bne_iff_ne]
  rw [ValidEdges, ← hall, ← offsetsRise_iff, ← Bool.not_and, Bool.not_eq_true', ← Bool.and_eq_true, Bool.not_eq_true]

theorem inject_of_track : s.inject (.ofNat 8 (trackCode t)) edges =
    if !(edges.all fun e => edgeNamed e && e.offset != 0) || !offsetsRise edges then s.refuse .badArg
    else if s.mode t ≠ .test then s.refuse .notInTest
    else if 16 < (s.tracks.get t).injections.length + edges.length then s.refuse .full
    else (s.setInjections t (edges.foldl (fun q e => insertInjected s.now (injectedEdge s.now e) q) (s.tracks.get t).injections)).grant
      (timeBytes s.now ++ [.ofNat 8 ((s.tracks.get t).injections.length + edges.length)]) := by
  unfold State.inject
  rw [trackOf_trackCode]
  rfl

end

theorem inputOf_setWidth (b : Byte) : inputOf (b.setWidth 2) = match b.getLsbD 1, b.getLsbD 0 with
    | false, false => .wheel .w1
    | false, true => .wheel .w2
    | true, false => .beam .ha
    | true, true => .beam .hb := by
  have hcodes : ∀ x : BitVec 2, inputOf x = match x.getLsbD 1, x.getLsbD 0 with
      | false, false => .wheel .w1
      | false, true => .wheel .w2
      | true, false => .beam .ha
      | true, true => .beam .hb := by decide
  have hone : (b.setWidth 2).getLsbD 1 = b.getLsbD 1 := by simp
  have hzero : (b.setWidth 2).getLsbD 0 = b.getLsbD 0 := by simp
  rw [hcodes, hone, hzero]

/-- Settles O49, by the tests of R146 in their order; the edges are placed one by one. -/
theorem injectQueuesTimedEdges : Obligations.InjectQueuesTimedEdges := by
  intro s p edges hs hx hone hmost now input made place valid
  have hbody : (edges.flatMap edgeBytes).length = 4 * edges.length := length_flatMap_edgeBytes edges
  have hl : ∀ b : Byte, (b :: edges.flatMap edgeBytes).length ≤ 14 := fun b => by
    rw [List.length_cons, hbody]
    omega
  have hk : ∀ b : Byte, allowsLength .inject (b :: edges.flatMap edgeBytes).length = true := fun b => by
    rw [List.length_cons, hbody]
    have hcases : edges.length = 1 ∨ edges.length = 2 ∨ edges.length = 3 := by omega
    rcases hcases with h | h | h <;> rw [h] <;> rfl
  have hperform : ∀ frame b, (s.performing p frame).perform p .inject (b :: edges.flatMap edgeBytes) = (s.performing p frame).inject b edges :=
    fun frame b => congrArg (State.inject _ b) (injectArgs_flatMap edges)
  have hmade : ∀ e, injectedEdge now e = made e := fun e => by
    have htime : plus now e.offset.toNat = now + e.offset.setWidth 32 := by rw [plus, BitVec.ofNat_toNat]
    exact congrArg₂ (fun i x => { input := i, active := e.edge.getLsbD 7, time := x : InjectedEdge }) (inputOf_setWidth e.edge) htime
  refine ⟨fun b hb => ?_, fun t => ⟨fun h => ?_, fun h hmode => ?_, fun h hmode hfull => ?_, fun h hmode hroom => ?_⟩⟩
  · exact request_keeps (k := .inject) (r := .badArg) (out := []) hs hx (hl _) (hk _) fun frame => (hperform ..).trans (inject_noTrack hb)
  · exact request_keeps (k := .inject) (r := .badArg) (out := []) hs hx (hl _) (hk _)
      fun frame => (hperform ..).trans (inject_of_track.trans (if_pos (validEdges_iff.mpr h)))
  · exact request_keeps (k := .inject) (r := .notInTest) (out := []) hs hx (hl _) (hk _)
      fun frame => (hperform ..).trans (inject_of_track.trans ((if_neg (mt validEdges_iff.mp (not_not.mpr h))).trans (if_pos hmode)))
  · exact request_keeps (k := .inject) (r := .full) (out := []) hs hx (hl _) (hk _)
      fun frame => (hperform ..).trans (inject_of_track.trans ((if_neg (mt validEdges_iff.mp (not_not.mpr h))).trans ((if_neg (not_not.mpr hmode)).trans (if_pos hfull))))
  · have hqueue : edges.foldl (fun q e => insertInjected now (injectedEdge now e) q) (s.tracks.get t).injections =
        (edges.map made).foldl place (s.tracks.get t).injections := by
      rw [List.foldl_map]
      refine congrArg (fun f => edges.foldl f _) (funext fun q => funext fun e => ?_)
      rw [hmade, insertInjected_eq]
      rfl
    have h := request_leaves (k := .inject) (r := .accepted)
      (out := timeBytes now ++ [.ofNat 8 ((s.tracks.get t).injections.length + edges.length)]) (s.setInjections t ((edges.map made).foldl place (s.tracks.get t).injections))
      hs hx (hl _) (hk (.ofNat 8 (trackCode t))) ⟨rfl, rfl, rfl⟩ fun frame => by
        refine (hperform ..).trans (inject_of_track.trans ((if_neg (mt validEdges_iff.mp (not_not.mpr h))).trans ((if_neg (not_not.mpr hmode)).trans
          ((if_neg (Nat.not_lt.mpr hroom)).trans ?_))))
        rw [← hqueue]
        exact rfl
    rw [timeBytes_eq] at h
    exact h

end Sys2Proof.Machine
end

section
/-! PROOFS. Changes of mode (chapter 7): the steps of R138, in the order the manual fixes and in some order where it fixes none. O46. -/

namespace Sys2Proof.Machine

/-! ### Events in an order the manual leaves open -/

section Orders

variable {ι : Type} {f g : ι → State → State} {P : State → Prop}

/-- Events that do the same wherever `P` holds come to the same, in whatever order they are taken. -/
theorem inAnyOrder_congr (hchoices : ∀ w n, P w → P (w.setChoices n)) (fuel : Nat) (l : List ι) (heq : ∀ x ∈ l, ∀ w, P w → f x w = g x w)
    (hkeep : ∀ x ∈ l, ∀ w, P w → P (f x w)) (s : State) (hs : P s) : inAnyOrder fuel (l.map f) s = inAnyOrder fuel (l.map g) s := by
  induction fuel generalizing l s with
  | zero => rfl
  | succ fuel ih =>
    match l with
    | [] => rfl
    | [a] => exact heq a (List.mem_singleton_self a) s hs
    | a :: b :: rest =>
      simp only [List.map_cons, inAnyOrder, State.chooseIndex]
      simp only [← List.map_cons, List.length_map]
      generalize hl : a :: b :: rest = l at heq hkeep ⊢
      have hpos : 0 < l.length := hl ▸ Nat.succ_pos _
      generalize hk : Config.choose s.choices l.length % l.length = k
      have hk' : k < l.length := hk ▸ Nat.mod_lt _ hpos
      have hmem : l[k] ∈ l := List.getElem_mem hk'
      have hnext := hchoices s (s.choices + 1) hs
      simp only [List.eraseIdx_map, List.getD_eq_getElem?_getD, List.getElem?_map, List.getElem?_eq_getElem hk', Option.map_some,
        Option.getD_some, ← heq _ hmem _ hnext]
      exact ih _ (fun x hx => heq x (List.mem_of_mem_eraseIdx hx)) (fun x hx => hkeep x (List.mem_of_mem_eraseIdx hx)) _ (hkeep _ hmem _ hnext)

theorem takeAll_map_inSomeOrder (hchoices : ∀ w n, P w → P (w.setChoices n)) {l : List ι} (heq : ∀ x w, P w → f x w = g x w)
    (hkeep : ∀ x w, P w → P (f x w)) {s : State} (hs : P s) : s.InSomeOrder (l.map g) (s.takeAll (l.map f)) := by
  have hsame : s.takeAll (l.map f) = s.takeAll (l.map g) := by
    unfold State.takeAll
    rw [List.length_map, List.length_map]
    exact inAnyOrder_congr hchoices _ l (fun x _ => heq x) (fun x _ => hkeep x) s hs
  rw [hsame]
  exact takeAll_inSomeOrder ..

end Orders

theorem State.InSomeOrder.perm {s u : State} {acts acts' : List (State → State)} (h : s.InSomeOrder acts u) (hp : acts.Perm acts') :
    s.InSomeOrder acts' u := by
  obtain ⟨l, hl, hu⟩ := h
  exact ⟨l, hl.trans hp, hu⟩

/-- What one of the events brings about, and none of them undoes, holds after them all. -/
theorem takeAll_establishes {P : State → Prop} {acts : List (State → State)} {a : State → State} (ha : a ∈ acts) (hbrings : ∀ w, P (a w))
    (hchoices : ∀ w n, P w → P (w.setChoices n)) (hkeep : ∀ b ∈ acts, ∀ w, P w → P (b w)) (s : State) : P (s.takeAll acts) := by
  obtain ⟨l, hl, hu⟩ := takeAll_inSomeOrder acts s
  rw [hu]
  obtain ⟨x, hx, rfl⟩ := List.mem_map.mp (hl.mem_iff.mpr ha)
  obtain ⟨before, after, rfl⟩ := List.append_of_mem hx
  have hmem : ∀ y ∈ after, y.1 ∈ acts := fun y hy =>
    hl.mem_iff.mp (List.mem_map_of_mem (List.mem_append_right _ (List.mem_cons_of_mem _ hy)))
  rw [List.foldl_append, List.foldl_cons]
  generalize hw : x.1 ((before.foldl (fun w a => a.1 (w.setChoices a.2)) s).setChoices x.2) = w
  have hholds : P w := hw ▸ hbrings _
  clear hw hl hx hu
  induction after generalizing w with
  | nil => exact hholds
  | cons y after ih =>
    rw [List.foldl_cons]
    exact ih (fun z hz => hmem z (List.mem_cons_of_mem _ hz)) _ (hkeep _ (hmem y List.mem_cons_self) _ (hchoices _ _ hholds))

/-! ### A new active level (R14) -/

theorem handEdge_conditioner (s : State) (t : Track) (i : Input) (a : Bool) (x : Time) (k : Track) (j : Input) :
    (s.handEdge t i a x).conditioner k j = s.conditioner k j := by
  unfold State.conditioner
  rw [(handEdge_only ..).inputs]

theorem OnlyDetectors.config {s u : State} (h : OnlyDetectors s u) (t : Track) : u.config t = s.config t := by
  unfold State.config
  rw [h.tracks, h.image]

/-- A filter toward the active level that a conditioner just made quiet begins. -/
theorem startFilter_quiet {u : State} {t : Track} {i : Input} {c : Conditioner} (hc : u.conditioner t i = c) (hpin : c.pin = .inactive)
    (hfilter : c.filter = none) (hmode : u.mode t ≠ .test) : u.startFilter t i true =
      if (u.config t).nFilt.get i = 0 then
        (u.setConditioner t i { c with pin := .active, stuckAt := stuckDeadlineFor (u.config t) i u.clock.tb }).handEdge t i true u.clock.tb
      else u.setConditioner t i { c with
        filter := some { toActive := true, t0 := u.clock.tb, deadline := u.clock.tb + BitVec.ofNat 32 ((u.config t).nFilt.get i) } } := by
  have hself : u = u.setConditioner t i c := by rw [← hc, setConditioner_self]
  have hstart := startFilter_setConditioner (s := u) (t := t) (i := i) c true
  rw [← hself] at hstart
  rw [hstart]
  refine if_congr Iff.rfl ?_ rfl
  have haccept := acceptFilter_emits (s := u) (t := t) (accept_active i (u.config t) u.clock.tb hpin)
  rw [← hself] at haccept
  rw [haccept, ← hfilter]
  exact if_neg hmode

/-- The conditioner of an input of a track that is not in TEST takes a new active level as R14 has it. -/
theorem changeActiveLevel_eq {s : State} {t : Track} (i : Input) (hmode : s.mode t ≠ .test) : s.changeActiveLevel t i = s.takesNewLevel t i := by
  let quiet : Conditioner := { s.conditioner t i with filter := none, stuckAt := none, pin := .inactive, sampleTaken := true }
  let ended := if (s.conditioner t i).pin = .active then (s.setConditioner t i quiet).handEdge t i false s.clock.tb else s.setConditioner t i quiet
  have hended : OnlyDetectors s ended ∧ ended.conditioner t i = quiet := by
    simp only [ended]
    split
    · exact ⟨(setConditioner_only ..).trans (handEdge_only ..).detectors,
        (handEdge_conditioner ..).trans (conditioner_setConditioner ..)⟩
    · exact ⟨setConditioner_only .., conditioner_setConditioner ..⟩
  have hemit : (if (s.conditioner t i).pin = .active then
      (s.setConditioner t i quiet).emitPinEdge t i false (s.setConditioner t i quiet).now else s.setConditioner t i quiet) = ended :=
    if_congr Iff.rfl (if_neg hmode) rfl
  obtain ⟨honly, hcond⟩ := hended
  have hshows : ended.showsActive t i = true ↔ (s.conditioner t i).raw = (s.config t).activeHigh.get i := by
    rw [State.showsActive, hcond, honly.config, beq_iff_eq]
  have hfilter := startFilter_quiet hcond rfl rfl (by rwa [honly.controls.mode])
  rw [honly.config, honly.clock] at hfilter
  have hchange : s.changeActiveLevel t i = if ended.showsActive t i = true then ended.startFilter t i true else ended := by
    unfold State.changeActiveLevel
    simp only [← hemit]
    rfl
  rw [hchange, hfilter]
  by_cases hraw : (s.conditioner t i).raw = (s.config t).activeHigh.get i
  · rw [if_pos (hshows.mpr hraw)]
    exact (if_neg (not_not.mpr hraw)).symm
  · rw [if_neg (mt hshows.mp hraw)]
    exact (if_pos hraw).symm

/-! ### The steps of a change of mode (R138) -/

/-- The track controls and the conditioners of the other track stay. -/
structure SameElsewhere (t : Track) (s u : State) : Prop where
  tracks : ∀ k, k ≠ t → u.tracks.get k = s.tracks.get k
  inputs : ∀ k, k ≠ t → u.inputs.get k = s.inputs.get k

theorem SameElsewhere.refl (t : Track) (s : State) : SameElsewhere t s s := ⟨fun _ _ => rfl, fun _ _ => rfl⟩

theorem SameElsewhere.trans {t : Track} {s u v : State} (h : SameElsewhere t s u) (k : SameElsewhere t u v) : SameElsewhere t s v :=
  ⟨fun j hj => (k.tracks j hj).trans (h.tracks j hj), fun j hj => (k.inputs j hj).trans (h.inputs j hj)⟩

section Elsewhere

variable (s : State) (t : Track)

theorem OnlyEdges.elsewhere {s u : State} (h : OnlyEdges s u) : SameElsewhere t s u :=
  ⟨fun _ _ => by rw [h.tracks], fun _ _ => by rw [h.inputs]⟩

theorem setConditioner_elsewhere (i : Input) (c : Conditioner) : SameElsewhere t s (s.setConditioner t i c) :=
  ⟨fun _ _ => rfl, fun _ hk => PerTrack.get_modify_ne _ _ hk.symm⟩

theorem setTracks_elsewhere (f : TrackControl → TrackControl) : SameElsewhere t s (s.setTracks (s.tracks.modify t f)) :=
  ⟨fun _ hk => PerTrack.get_modify_ne _ _ hk.symm, fun _ _ => rfl⟩

theorem handEdge_elsewhere (i : Input) (a : Bool) (x : Time) : SameElsewhere t s (s.handEdge t i a x) := (handEdge_only ..).elsewhere t

theorem emitPinEdge_elsewhere (i : Input) (a : Bool) (x : Time) : SameElsewhere t s (s.emitPinEdge t i a x) := by
  unfold State.emitPinEdge
  split
  · exact .refl t s
  · exact handEdge_elsewhere ..

theorem startFilter_elsewhere (i : Input) (a : Bool) : SameElsewhere t s (s.startFilter t i a) := by
  unfold State.startFilter State.acceptFilter
  dsimp only
  split
  · split
    · exact setConditioner_elsewhere ..
    · exact (setConditioner_elsewhere ..).trans (emitPinEdge_elsewhere ..)
  · exact setConditioner_elsewhere ..

theorem endPinStream_elsewhere (i : Input) : SameElsewhere t s (s.endPinStream t i) := by
  unfold State.endPinStream
  split
  · exact handEdge_elsewhere ..
  · exact .refl t s

theorem startPinStream_elsewhere (i : Input) : SameElsewhere t s (s.startPinStream t i) := by
  unfold State.startPinStream
  split
  · exact handEdge_elsewhere ..
  · exact .refl t s

theorem endInjectedStream_elsewhere (i : Input) : SameElsewhere t s (s.endInjectedStream t i) := by
  unfold State.endInjectedStream
  dsimp only
  refine SameElsewhere.trans ?_ (setConditioner_elsewhere ..)
  split
  · exact handEdge_elsewhere ..
  · exact .refl t s

theorem settleActiveLevel_elsewhere (old : PerInput Bool) (i : Input) : SameElsewhere t s (s.settleActiveLevel old t i) := by
  unfold State.settleActiveLevel State.changeActiveLevel
  dsimp only
  split
  · exact .refl t s
  · have hquiet := setConditioner_elsewhere s t i { s.conditioner t i with filter := none, stuckAt := none, pin := .inactive, sampleTaken := true }
    generalize s.setConditioner t i { s.conditioner t i with filter := none, stuckAt := none, pin := .inactive, sampleTaken := true } = u
      at hquiet ⊢
    have hended : SameElsewhere t s (if (s.conditioner t i).pin = .active then u.emitPinEdge t i false u.now else u) := by
      split
      · exact hquiet.trans (emitPinEdge_elsewhere ..)
      · exact hquiet
    generalize (if (s.conditioner t i).pin = .active then u.emitPinEdge t i false u.now else u) = v at hended ⊢
    split
    · exact hended.trans (startFilter_elsewhere ..)
    · exact hended

theorem takeAll_elsewhere {acts : List (State → State)} (h : ∀ a ∈ acts, ∀ s, SameElsewhere t s (a s)) (s : State) :
    SameElsewhere t s (s.takeAll acts) :=
  takeAll_keeps (SameElsewhere.refl t) (fun _ _ _ => SameElsewhere.trans) (fun _ _ => ⟨fun _ _ => rfl, fun _ _ => rfl⟩) acts h s

theorem takeAll_map_elsewhere {ι : Type} (l : List ι) {f : ι → State → State} (h : ∀ x s, SameElsewhere t s (f x s)) (s : State) :
    SameElsewhere t s (s.takeAll (l.map f)) :=
  takeAll_elsewhere t (fun a ha s => by
    obtain ⟨x, -, rfl⟩ := List.mem_map.mp ha
    exact h x s) s

end Elsewhere

/-- The two events of an input in OUT reached from TEST: its pin stream starts, its active level settles. -/
def outEvent (old : PerInput Bool) (t : Track) (e : Input × Bool) (s : State) : State :=
  if e.2 then s.settleActiveLevel old t e.1 else s.startPinStream t e.1

/-- The events of OUT reached from TEST, input by input. -/
def outEvents : List (Input × Bool) := Input.all.flatMap fun i => [(i, false), (i, true)]

theorem outEvents_eq (old : PerInput Bool) (t : Track) :
    (Input.all.flatMap fun i => [fun s => State.startPinStream s t i, fun s => s.settleActiveLevel old t i]) = outEvents.map (outEvent old t) :=
  rfl

theorem outEvents_perm : outEvents.Perm (Input.all.map (·, false) ++ Input.all.map (·, true)) := List.isPerm_iff.mp rfl

theorem outEvent_elsewhere (old : PerInput Bool) (t : Track) (e : Input × Bool) (s : State) : SameElsewhere t s (outEvent old t e s) := by
  unfold outEvent
  split
  · exact settleActiveLevel_elsewhere ..
  · exact startPinStream_elsewhere ..

theorem outEvent_only (old : PerInput Bool) (t : Track) (e : Input × Bool) (s : State) : OnlyDetectors s (outEvent old t e s) := by
  unfold outEvent
  split
  · exact settleActiveLevel_only ..
  · exact startPinStream_only ..

/-- A track goes OUT: the entries of its records leave the list, its snapshot is discarded, and its mode is OUT. -/
def State.goesOut (s : State) (t : Track) : State := ((s.removeTrackEntries t).dropSnapshot t).setMode t .out

theorem liveToOut_eq (s : State) (t : Track) : s.liveToOut t =
    ((s.goesOut t).takeAll (Input.all.map fun i u => u.settleActiveLevel (s.config t).activeHigh t i)).dropUnits t := rfl

theorem testToOut_eq (s : State) (t : Track) : s.testToOut t =
    ((((s.setInjections t []).takeAll (Input.all.map fun i u => u.endInjectedStream t i)).goesOut t).takeAll
      (outEvents.map (outEvent (s.config t).activeHigh t))).dropUnits t := rfl

theorem testToLive_eq (s : State) (t : Track) : s.testToLive t =
    ((((s.setInjections t []).setMode t .live).takeAll (Input.all.map fun i u => u.endInjectedStream t i)).takeAll
      (Beam.all.map fun b u => u.startPinStream t (.beam b))).takeAll (Wheel.all.map fun w u => u.startPinStream t (.wheel w)) := rfl

/-! ### What a change of mode leaves to the other track, and the mode it reaches -/

theorem removeTrackEntries_elsewhere (s : State) (t k : Track) : SameElsewhere t s (s.removeTrackEntries k) :=
  OnlyEdges.elsewhere t (removeEntries_only ..).edges

theorem goesOut_elsewhere (s : State) (t : Track) : SameElsewhere t s (s.goesOut t) :=
  ((removeTrackEntries_elsewhere s t t).trans (setTracks_elsewhere ..)).trans (setTracks_elsewhere ..)

theorem dropUnits_elsewhere (s : State) (t : Track) : SameElsewhere t s (s.dropUnits t) := by
  unfold State.dropUnits
  split <;> exact ⟨fun _ _ => rfl, fun _ _ => rfl⟩

theorem adopt_elsewhere (s : State) (t : Track) : SameElsewhere t s (s.adopt t) :=
  ⟨(setTracks_elsewhere s t _).tracks, fun _ _ => rfl⟩

theorem leaveOut_elsewhere (s : State) (t : Track) (m : Mode) : SameElsewhere t s (s.leaveOut t m) := by
  have h := (adopt_elsewhere s t).trans (setTracks_elsewhere (s.adopt t) t fun x => { x with mode := m })
  unfold State.leaveOut
  dsimp only
  split
  · exact h.trans (takeAll_map_elsewhere t _ (fun i s => endPinStream_elsewhere s t i) _)
  · exact h

theorem changeMode_elsewhere (s : State) (t : Track) (m : Mode) : SameElsewhere t s (s.changeMode t m) := by
  unfold State.changeMode
  split
  · exact leaveOut_elsewhere ..
  · exact leaveOut_elsewhere ..
  · exact (setTracks_elsewhere ..).trans (takeAll_map_elsewhere t _ (fun i s => endPinStream_elsewhere s t i) _)
  · exact ((((setTracks_elsewhere s t _).trans (setTracks_elsewhere ..)).trans
      (takeAll_map_elsewhere t _ (fun i s => endInjectedStream_elsewhere s t i) _)).trans
      (takeAll_map_elsewhere t _ (fun b s => startPinStream_elsewhere s t (.beam b)) _)).trans
      (takeAll_map_elsewhere t _ (fun w s => startPinStream_elsewhere s t (.wheel w)) _)
  · rw [liveToOut_eq]
    exact ((goesOut_elsewhere s t).trans (takeAll_map_elsewhere t _ (fun i s => settleActiveLevel_elsewhere s t _ i) _)).trans
      (dropUnits_elsewhere ..)
  · rw [testToOut_eq]
    exact ((((setTracks_elsewhere s t _).trans (takeAll_map_elsewhere t _ (fun i s => endInjectedStream_elsewhere s t i) _)).trans
      (goesOut_elsewhere _ t)).trans (takeAll_map_elsewhere t _ (fun e s => outEvent_elsewhere _ t e s) _)).trans (dropUnits_elsewhere ..)
  · exact .refl t s

theorem mode_dropUnits (s : State) (t k : Track) : (s.dropUnits t).mode k = s.mode k := by
  unfold State.dropUnits
  split <;> rfl

theorem mode_setMode_self (s : State) (t : Track) (m : Mode) : (s.setMode t m).mode t = m := by rw [mode_setMode, if_pos rfl]

theorem outEvents_controls (s : State) (old : PerInput Bool) (t : Track) : SameControls s (s.takeAll (outEvents.map (outEvent old t))) :=
  takeAll_controls _ (fun a ha s => by
    obtain ⟨e, -, rfl⟩ := List.mem_map.mp ha
    exact outEvent_only ..) s

theorem leaveOut_mode (s : State) (t : Track) (m : Mode) : (s.leaveOut t m).mode t = m := by
  unfold State.leaveOut
  dsimp only
  split
  · rw [(endPinStreams_controls ..).mode, mode_setMode_self]
  · rw [mode_setMode_self]

section Changes

variable {s : State} {t : Track}

theorem changeMode_outLive (h : s.mode t = .out) : s.changeMode t .live = s.leaveOut t .live := by
  unfold State.changeMode
  rw [h]

theorem changeMode_outTest (h : s.mode t = .out) : s.changeMode t .test = s.leaveOut t .test := by
  unfold State.changeMode
  rw [h]

theorem changeMode_liveTest (h : s.mode t = .live) : s.changeMode t .test = s.liveToTest t := by
  unfold State.changeMode
  rw [h]

theorem changeMode_testLive (h : s.mode t = .test) : s.changeMode t .live = s.testToLive t := by
  unfold State.changeMode
  rw [h]

theorem changeMode_liveOut (h : s.mode t = .live) : s.changeMode t .out = s.liveToOut t := by
  unfold State.changeMode
  rw [h]

theorem changeMode_testOut (h : s.mode t = .test) : s.changeMode t .out = s.testToOut t := by
  unfold State.changeMode
  rw [h]

theorem testToLive_mode : (s.testToLive t).mode t = .live :=
  (((endInjectedStreams_controls ..).trans ((startPinStreams_controls _ t Beam.all .beam).trans
    (startPinStreams_controls _ t Wheel.all .wheel))).mode t).trans (mode_setMode_self ..)

theorem liveToOut_mode : (s.liveToOut t).mode t = .out := by
  rw [liveToOut_eq, mode_dropUnits, (settleActiveLevels_controls ..).mode]
  exact mode_setMode_self ..

theorem testToOut_mode : (s.testToOut t).mode t = .out := by
  rw [testToOut_eq, mode_dropUnits, (outEvents_controls ..).mode]
  exact mode_setMode_self ..

theorem changeMode_mode {m : Mode} (h : m ≠ s.mode t) : (s.changeMode t m).mode t = m := by
  match hm : s.mode t, m with
  | .out, .out => exact absurd hm.symm h
  | .out, .live => rw [changeMode_outLive hm, leaveOut_mode]
  | .out, .test => rw [changeMode_outTest hm, leaveOut_mode]
  | .live, .out => rw [changeMode_liveOut hm, liveToOut_mode]
  | .live, .live => exact absurd hm.symm h
  | .live, .test => rw [changeMode_liveTest hm, State.liveToTest, (endPinStreams_controls ..).mode, mode_setMode_self]
  | .test, .out => rw [changeMode_testOut hm, testToOut_mode]
  | .test, .live => rw [changeMode_testLive hm, testToLive_mode]
  | .test, .test => exact absurd hm.symm h

end Changes

/-! ### Injection states are cleared on leaving TEST (R17) -/

/-- The injection states of a track's conditioners stay. -/
structure SameInjections (t : Track) (s u : State) : Prop where
  injection : ∀ j, (u.conditioner t j).injection = (s.conditioner t j).injection
  stuckAt : ∀ j, (u.conditioner t j).injectionStuckAt = (s.conditioner t j).injectionStuckAt

theorem SameInjections.refl (t : Track) (s : State) : SameInjections t s s := ⟨fun _ => rfl, fun _ => rfl⟩

theorem SameInjections.trans {t : Track} {s u v : State} (h : SameInjections t s u) (k : SameInjections t u v) : SameInjections t s v :=
  ⟨fun j => (k.injection j).trans (h.injection j), fun j => (k.stuckAt j).trans (h.stuckAt j)⟩

section Injections

variable (s : State) (t : Track) (i : Input)

theorem SameInjections.of_inputs {s u : State} (h : u.inputs = s.inputs) : SameInjections t s u := by
  constructor <;>
    intro j <;>
    rw [State.conditioner, h] <;>
    rfl

theorem conditioner_setConditioner_ne {j : Input} (hj : i ≠ j) (c : Conditioner) : (s.setConditioner t i c).conditioner t j = s.conditioner t j := by
  unfold State.conditioner State.setConditioner
  rw [setInputs_inputs, PerTrack.get_modify_self, PerInput.get_set_ne _ _ hj]

theorem setConditioner_injections {c : Conditioner} (hstate : c.injection = (s.conditioner t i).injection)
    (hstuck : c.injectionStuckAt = (s.conditioner t i).injectionStuckAt) : SameInjections t s (s.setConditioner t i c) := by
  constructor <;>
    intro j <;>
    by_cases hj : i = j
  · subst hj
    rw [conditioner_setConditioner, hstate]
  · rw [conditioner_setConditioner_ne _ _ _ hj]
  · subst hj
    rw [conditioner_setConditioner, hstuck]
  · rw [conditioner_setConditioner_ne _ _ _ hj]

theorem handEdge_injections (a : Bool) (x : Time) : SameInjections t s (s.handEdge t i a x) := .of_inputs t (handEdge_only ..).inputs

theorem emitPinEdge_injections (a : Bool) (x : Time) : SameInjections t s (s.emitPinEdge t i a x) := by
  unfold State.emitPinEdge
  split
  · exact .refl t s
  · exact handEdge_injections ..

theorem accept_injections (c : Conditioner) (cfg : TrackConfig) (a : Bool) (x : Time) :
    (c.accept cfg i a x).1.injection = c.injection ∧ (c.accept cfg i a x).1.injectionStuckAt = c.injectionStuckAt := by
  unfold Conditioner.accept
  split <;> exact ⟨rfl, rfl⟩

theorem startFilter_injections (a : Bool) : SameInjections t s (s.startFilter t i a) := by
  obtain ⟨hstate, hstuck⟩ := accept_injections i (s.conditioner t i) (s.config t) a s.now
  unfold State.startFilter State.acceptFilter
  dsimp only
  split
  · split
    · exact setConditioner_injections s t i hstate hstuck
    · exact (setConditioner_injections s t i hstate hstuck).trans (emitPinEdge_injections ..)
  · exact setConditioner_injections s t i rfl rfl

theorem startPinStream_injections : SameInjections t s (s.startPinStream t i) := by
  unfold State.startPinStream
  split
  · exact handEdge_injections ..
  · exact .refl t s

theorem settleActiveLevel_injections (old : PerInput Bool) : SameInjections t s (s.settleActiveLevel old t i) := by
  unfold State.settleActiveLevel State.changeActiveLevel
  dsimp only
  split
  · exact .refl t s
  · have hquiet := setConditioner_injections s t i
      (c := { s.conditioner t i with filter := none, stuckAt := none, pin := .inactive, sampleTaken := true }) rfl rfl
    generalize s.setConditioner t i { s.conditioner t i with filter := none, stuckAt := none, pin := .inactive, sampleTaken := true } = u
      at hquiet ⊢
    have hended : SameInjections t s (if (s.conditioner t i).pin = .active then u.emitPinEdge t i false u.now else u) := by
      split
      · exact hquiet.trans (emitPinEdge_injections ..)
      · exact hquiet
    generalize (if (s.conditioner t i).pin = .active then u.emitPinEdge t i false u.now else u) = v at hended ⊢
    split
    · exact hended.trans (startFilter_injections ..)
    · exact hended

theorem outEvent_injections (old : PerInput Bool) (e : Input × Bool) : SameInjections t s (outEvent old t e s) := by
  unfold outEvent
  split
  · exact settleActiveLevel_injections ..
  · exact startPinStream_injections ..

theorem takeAll_map_injections {ι : Type} (l : List ι) {f : ι → State → State} (h : ∀ x s, SameInjections t s (f x s)) :
    SameInjections t s (s.takeAll (l.map f)) :=
  takeAll_keeps (SameInjections.refl t) (fun _ _ _ => SameInjections.trans) (fun _ _ => .of_inputs t rfl) _ (fun a ha s => by
    obtain ⟨x, -, rfl⟩ := List.mem_map.mp ha
    exact h x s) s

end Injections

/-- The injection state of an input is cleared. -/
def InjectionCleared (t : Track) (i : Input) (s : State) : Prop :=
  (s.conditioner t i).injection = .inactive ∧ (s.conditioner t i).injectionStuckAt = none

section Cleared

variable {s : State} {t : Track} {i : Input}

theorem InjectionCleared.of_same {u : State} (h : InjectionCleared t i s) (hsame : SameInjections t s u) : InjectionCleared t i u :=
  ⟨(hsame.injection i).trans h.1, (hsame.stuckAt i).trans h.2⟩

theorem endInjectedStream_cleared (s : State) (t : Track) (i : Input) : InjectionCleared t i (s.endInjectedStream t i) := by
  unfold State.endInjectedStream InjectionCleared
  dsimp only
  rw [conditioner_setConditioner]
  exact ⟨rfl, rfl⟩

theorem InjectionCleared.endInjectedStream (h : InjectionCleared t i s) (j : Input) : InjectionCleared t i (s.endInjectedStream t j) := by
  by_cases hj : j = i
  · subst hj
    exact endInjectedStream_cleared ..
  · have hended : SameInjections t s (if (s.conditioner t j).injection = .active then s.handEdge t j false s.now else s) := by
      split
      · exact handEdge_injections ..
      · exact .refl t s
    have h' := h.of_same hended
    unfold State.endInjectedStream InjectionCleared at *
    dsimp only
    rwa [conditioner_setConditioner_ne _ _ _ hj]

theorem endInjectedStreams_cleared (s : State) (t : Track) (i : Input) :
    InjectionCleared t i (s.takeAll (Input.all.map fun i u => u.endInjectedStream t i)) :=
  takeAll_establishes (P := InjectionCleared t i) (List.mem_map_of_mem (input_mem_all i)) (fun w => endInjectedStream_cleared w t i)
    (fun _ _ h => h) (fun a ha w h => by
      obtain ⟨j, -, rfl⟩ := List.mem_map.mp ha
      exact h.endInjectedStream j) s

theorem dropUnits_injections (s : State) (t : Track) : SameInjections t s (s.dropUnits t) := by
  unfold State.dropUnits
  split <;> exact .of_inputs t rfl

theorem goesOut_injections (s : State) (t : Track) : SameInjections t s (s.goesOut t) := .of_inputs t (removeEntries_only ..).edges.inputs

theorem changeMode_cleared {m : Mode} (htest : s.mode t = .test) (hm : m ≠ .test) : InjectionCleared t i (s.changeMode t m) := by
  match m, hm with
  | .live, _ =>
    rw [changeMode_testLive htest, testToLive_eq]
    exact ((endInjectedStreams_cleared ..).of_same (takeAll_map_injections _ t Beam.all fun b s => startPinStream_injections s t (.beam b))).of_same
      (takeAll_map_injections _ t Wheel.all fun w s => startPinStream_injections s t (.wheel w))
  | .out, _ =>
    rw [changeMode_testOut htest, testToOut_eq]
    exact (((endInjectedStreams_cleared ..).of_same (goesOut_injections ..)).of_same
      (takeAll_map_injections _ t outEvents fun e s => outEvent_injections s t _ e)).of_same (dropUnits_injections ..)

end Cleared

/-! ### The steps, in their order -/

section Steps

variable {s : State} {t : Track}

theorem adopt_setMode_eq (s : State) (t : Track) (m : Mode) : (s.adopt t).setMode t m =
    (s.setTracks (s.tracks.set t { s.tracks.get t with mode := m, snapshot := some (takeSnapshot s.image t) })).setUnitSnapshot
      (some (s.unitsFor t)) := by
  unfold State.setMode State.adopt
  rw [setUnitSnapshot_tracks, setTracks_tracks]
  simp only [PerTrack.modify, PerTrack.get_set_self, PerTrack.set_set]
  rfl

theorem setInjections_setMode_eq (s : State) (t : Track) (m : Mode) : (s.setInjections t []).setMode t m =
    s.setTracks (s.tracks.set t { s.tracks.get t with mode := m, injections := [] }) := by
  unfold State.setMode State.setInjections
  rw [setTracks_tracks]
  simp only [PerTrack.modify, PerTrack.get_set_self, PerTrack.set_set]
  rfl

theorem removeTrackEntries_eq (w : State) (t : Track) : w.removeTrackEntries t =
    w.removeEntries (fun e => ((w.oldest fun r => r.number == e.record).map (·.track)) == some t) none true := by
  have hentry : w.entryOfTrack t = fun e => ((w.oldest fun r => r.number == e.record).map (·.track)) == some t := by
    funext e
    unfold State.entryOfTrack State.oldest State.record
    cases w.table.records.find? fun r => r.number == e.record <;> simp
  rw [State.removeTrackEntries, hentry]

theorem goesOut_eq (w : State) (t : Track) : w.goesOut t = (w.removeTrackEntries t).setTracks
    ((w.removeTrackEntries t).tracks.set t { w.tracks.get t with mode := .out, snapshot := none }) := by
  unfold State.goesOut State.setMode State.dropSnapshot
  rw [setTracks_tracks, ← (removeTrackEntries_detectors w t).tracks]
  simp only [PerTrack.modify, PerTrack.get_set_self, PerTrack.set_set]
  rfl

end Steps

/-- Settles O46: each change is its steps, taken one after the other; where the order is open, the events are the rules' own in every state
that the change passes through. -/
theorem modeChangesTakeTheirSteps : Obligations.ModeChangesTakeTheirSteps := by
  intro s t m now pin endsPin startsPin endsInjected settles control adopted removed freed u
  have hclock : ∀ {w v : State}, OnlyDetectors w v → w.clock.tb = now → v.clock.tb = now := fun h hw => (congrArg Clock.tb h.clock).trans hw
  have hstart : ∀ (i : Input) (w : State), w.clock.tb = now → w.startPinStream t i = startsPin i w := fun i w hw => by
    simp only [startsPin, ← hw]
    rfl
  have hstarts : ∀ {ι : Type} (l : List ι) (f : ι → Input) (w : State), w.clock.tb = now →
      w.InSomeOrder (l.map fun x => startsPin (f x)) (w.takeAll (l.map fun x v => v.startPinStream t (f x))) := fun l f w hw =>
    takeAll_map_inSomeOrder (P := fun v => v.clock.tb = now) (fun _ _ h => h) (fun x v hv => hstart (f x) v hv)
      (fun x v hv => hclock (startPinStream_only v t (f x)) hv) hw
  have hends : ∀ w : State, w.clock.tb = now →
      w.InSomeOrder (Input.all.map endsPin) (w.takeAll (Input.all.map fun i v => v.endPinStream t i)) := fun w hw =>
    takeAll_map_inSomeOrder (P := fun v => v.clock.tb = now) (fun _ _ h => h) (fun i v hv => by
      simp only [endsPin, ← hv]
      rfl) (fun i v hv => hclock (endPinStream_only v t i) hv) hw
  have hinjected : ∀ w : State, w.clock.tb = now →
      w.InSomeOrder (Input.all.map endsInjected) (w.takeAll (Input.all.map fun i v => v.endInjectedStream t i)) := fun w hw =>
    takeAll_map_inSomeOrder (P := fun v => v.clock.tb = now) (fun _ _ h => h) (fun i v hv => by
      have hsame : (if (v.conditioner t i).injection = .active then v.handEdge t i false v.now else v).conditioner t i = v.conditioner t i := by
        split
        · exact handEdge_conditioner ..
        · rfl
      unfold State.endInjectedStream
      simp only [hsame]
      simp only [endsInjected, ← hv]
      rfl) (fun i v hv => hclock (endInjectedStream_only v t i) hv) hw
  have hsettle : ∀ (i : Input) (w : State), w.mode t = .out → w.settleActiveLevel (s.config t).activeHigh t i = settles i w := fun i w hw => by
    have hchange := changeActiveLevel_eq (s := w) (t := t) i (by rw [hw]; decide)
    unfold State.settleActiveLevel
    rw [hchange]
  have hremoved : ∀ w : State, w.goesOut t = removed w := fun w => (goesOut_eq w t).trans (removeTrackEntries_eq w t ▸ rfl)
  have hout : ∀ w : State, (removed w).mode t = .out := fun w => (hremoved w) ▸ mode_setMode_self ..
  have hdrop : ∀ w : State, w.mode t.other = s.mode t.other → w.dropUnits t = freed w := fun w hw => by
    unfold State.dropUnits
    rw [hw]
  have hother : t.other ≠ t := by cases t <;> decide
  have helsewhere : ∀ {w v : State}, SameElsewhere t w v → v.mode t.other = w.mode t.other := fun h => congrArg TrackControl.mode (h.tracks _ hother)
  have hadopted : (s.adopt t).setMode t m = adopted := adopt_setMode_eq s t m
  have houts : ∀ w : State, w.clock.tb = now → w.mode t = .out →
      w.InSomeOrder (Input.all.map startsPin ++ Input.all.map settles) (w.takeAll (outEvents.map (outEvent (s.config t).activeHigh t))) :=
    fun w hw hwout => by
      have horder := takeAll_map_inSomeOrder (P := fun v => v.clock.tb = now ∧ v.mode t = .out) (l := outEvents)
        (f := outEvent (s.config t).activeHigh t) (g := fun e => if e.2 then settles e.1 else startsPin e.1) (fun _ _ h => h)
        (fun ⟨i, settle⟩ v ⟨hv, hvout⟩ => by
          cases settle
          · exact hstart i v hv
          · exact hsettle i v hvout)
        (fun e v ⟨hv, hvout⟩ => ⟨hclock (outEvent_only _ t e v) hv, ((outEvent_only _ t e v).controls.mode t).trans hvout⟩) ⟨hw, hwout⟩
      refine horder.perm ((outEvents_perm.map _).trans (List.Perm.of_eq ?_))
      rw [List.map_append, List.map_map, List.map_map]
      rfl
  refine ⟨fun hmode hm => ?_, fun hmode hm => ?_, fun hmode hm => ?_, fun hmode hm => ?_, fun hmode hm => ?_, fun hmode hm => ?_,
    changeMode_mode, fun k hk => ⟨(changeMode_elsewhere s t m).tracks k hk, (changeMode_elsewhere s t m).inputs k hk⟩, changeMode_only s t m,
    fun htest hm i => changeMode_cleared htest hm⟩
  · rw [← hadopted]
    subst hm
    exact changeMode_outLive hmode
  · rw [← hadopted]
    subst hm
    exact (congrArg _ (changeMode_outTest hmode)).mpr (hends _ rfl)
  · subst hm
    exact (congrArg _ (changeMode_liveTest hmode)).mpr (hends _ rfl)
  · subst hm
    have hu : u = s.testToLive t := changeMode_testLive hmode
    rw [hu, testToLive_eq, setInjections_setMode_eq]
    have hv := hinjected (control s { s.tracks.get t with mode := .live, injections := [] }) rfl
    have hvclock := congrArg Clock.tb (endInjectedStreams_only t (control s { s.tracks.get t with mode := .live, injections := [] })).clock
    generalize (control s { s.tracks.get t with mode := .live, injections := [] }).takeAll
      (Input.all.map fun i v => v.endInjectedStream t i) = v at hv hvclock ⊢
    have hw := hstarts Beam.all .beam v hvclock
    have hwclock := (congrArg Clock.tb (startPinStreams_only t Beam.all .beam v).clock).trans hvclock
    exact ⟨v, _, hv, hw, hstarts Wheel.all .wheel _ hwclock⟩
  · subst hm
    have hu : u = s.liveToOut t := changeMode_liveOut hmode
    rw [hu, liveToOut_eq, hremoved]
    refine ⟨_, takeAll_map_inSomeOrder (P := fun w => w.mode t = .out) (fun _ _ h => h) hsettle (fun i w hw => ?_) (hout s), hdrop _ ?_⟩
    · rw [(settleActiveLevel_only w _ t i).controls.mode, hw]
    · rw [(settleActiveLevels_controls ..).mode, ← hremoved]
      exact helsewhere (goesOut_elsewhere s t)
  · subst hm
    have hu : u = s.testToOut t := changeMode_testOut hmode
    rw [hu, testToOut_eq]
    have hv := hinjected (s.setInjections t []) rfl
    have hvclock : ((s.setInjections t []).takeAll (Input.all.map fun i v => v.endInjectedStream t i)).clock.tb = now :=
      congrArg Clock.tb (endInjectedStreams_only t (s.setInjections t [])).clock
    have hvmode : ((s.setInjections t []).takeAll (Input.all.map fun i v => v.endInjectedStream t i)).mode t.other = s.mode t.other := by
      rw [(endInjectedStreams_controls ..).mode, mode_setInjections]
    generalize (s.setInjections t []).takeAll (Input.all.map fun i v => v.endInjectedStream t i) = v at hv hvclock hvmode ⊢
    have hgone : (v.goesOut t).clock.tb = now := (congrArg Clock.tb (removeTrackEntries_only v t).clock).trans hvclock
    refine ⟨v, _, hv, (hremoved v) ▸ houts _ hgone ((hremoved v) ▸ hout v), hdrop _ ?_⟩
    rw [(outEvents_controls ..).mode]
    exact (helsewhere (goesOut_elsewhere v t)).trans hvmode

end Sys2Proof.Machine
end

section
/-! PROOFS. Validation of a snapshot (R141): each check of the table, and the first that fails. O47. -/

namespace Sys2Proof.Machine

theorem within_iff {lo hi n : Nat} : within lo hi n = true ↔ lo ≤ n ∧ n ≤ hi := by
  rw [within, Bool.and_eq_true, decide_eq_true_eq, decide_eq_true_eq]

theorem firstFailure_none_iff {cs : List Check} : firstFailure cs = none ↔ ∀ c ∈ cs, c.holds = true := by
  simp [firstFailure]

theorem forall_stationChecks {snap : TrackSnapshot} {code : Nat} {holds : Station → StationConfig → Bool} :
    (∀ c ∈ stationChecks snap code holds, c.holds = true) ↔
      ∀ st x, snap.stations.get st = some x → x.enabled = true → holds st x = true := by
  unfold stationChecks
  constructor
  · intro h st x hx henabled
    refine h { code := code, item := .ofNat 8 (stationCode st), holds := holds st x } (List.mem_filterMap.mpr ⟨st, station_mem_all st, ?_⟩)
    simp only [hx, henabled, if_true]
  · intro h c hc
    obtain ⟨st, -, hst⟩ := List.mem_filterMap.mp hc
    cases hx : snap.stations.get st with
    | none => simp [hx] at hst
    | some x =>
      by_cases henabled : x.enabled = true
      · simp only [hx, henabled, if_true, Option.some.injEq] at hst
        exact hst ▸ h st x hx henabled
      · simp [hx, henabled] at hst

/-- Check 2. -/
theorem trackInRange_iff (snap : TrackSnapshot) : trackInRange snap = true ↔
    (∀ i, snap.config.nFilt.get i ≤ 1023) ∧ (50 ≤ snap.config.tStuck ∧ snap.config.tStuck ≤ 5000) ∧ snap.config.m ≤ 1000 ∧
      (50 ≤ snap.config.lMin ∧ snap.config.lMin ≤ snap.config.lMax ∧ snap.config.lMax ≤ 3000) ∧
      (1000 ≤ snap.config.wMax ∧ snap.config.wMax ≤ 2000000) ∧ (50 ≤ snap.config.tQuiet ∧ snap.config.tQuiet ≤ 6000) ∧
      (100 ≤ snap.config.cTol ∧ snap.config.cTol ≤ 100000) ∧ (50 ≤ snap.tSetup ∧ snap.tSetup ≤ 5000) := by
  have hfilt : (Input.all.all fun i => within 0 1023 (snap.config.nFilt.get i)) = true ↔ ∀ i, snap.config.nFilt.get i ≤ 1023 := by
    simp only [List.all_eq_true, within_iff]
    exact ⟨fun h i => (h i (input_mem_all i)).2, fun h i _ => ⟨Nat.zero_le _, h i⟩⟩
  unfold trackInRange
  simp only [Bool.and_eq_true, decide_eq_true_eq, hfilt, within_iff]
  constructor
  · rintro ⟨⟨⟨⟨⟨⟨⟨⟨⟨hn, hstuck⟩, hm⟩, hmin⟩, hmax⟩, hle⟩, hw⟩, hquiet⟩, htol⟩, hsetup⟩
    exact ⟨hn, hstuck, hm.2, ⟨hmin.1, hle, hmax.2⟩, hw, hquiet, htol, hsetup⟩
  · rintro ⟨hn, hstuck, hm, ⟨hmin, hle, hmax⟩, hw, hquiet, htol, hsetup⟩
    exact ⟨⟨⟨⟨⟨⟨⟨⟨⟨hn, hstuck⟩, Nat.zero_le _, hm⟩, hmin, hle.trans hmax⟩, hmin.trans hle, hmax⟩, hle⟩, hw⟩, hquiet⟩, htol⟩, hsetup⟩

/-- Check 3. -/
theorem wheelSpacingHolds_iff (c : TrackConfig) : wheelSpacingHolds c = true ↔ c.xW1 + 200 ≤ c.xW2 ∧ c.xW2 ≤ c.xW1 + 4000 := by
  simp only [wheelSpacingHolds, Bool.and_eq_true, decide_eq_true_eq]
  omega

theorem mem_unitsOf {mask : BitVec 6} {f : FlashId} : f ∈ unitsOf mask ↔ mask.getLsbD (unitCode f) = true := by
  simp [unitsOf, unit_mem_all, inSet]

theorem unitsOf_eq_nil {mask : BitVec 6} : unitsOf mask = [] ↔ mask = 0 := by
  constructor
  · intro h
    refine BitVec.eq_of_getLsbD_eq fun i hi => ?_
    obtain ⟨f, rfl⟩ : ∃ f, unitCode f = i := by
      interval_cases i
      exacts [⟨.u0, rfl⟩, ⟨.u1, rfl⟩, ⟨.u2, rfl⟩, ⟨.u3, rfl⟩, ⟨.u4, rfl⟩, ⟨.u5, rfl⟩]
    have hnot : f ∉ unitsOf mask := h ▸ List.not_mem_nil
    rw [mem_unitsOf, Bool.not_eq_true] at hnot
    exact hnot.trans BitVec.getLsbD_zero.symm
  · rintro rfl
    rfl

/-- Check 9, of one station. -/
theorem flashSetHolds_iff (units : PerUnit UnitConfig) (c : StationConfig) : flashSetHolds units c = true ↔
    (c.policy = .required ∨ c.policy = .preferred →
      c.flashSet ≠ 0 ∧ ∀ f, c.flashSet.getLsbD (unitCode f) = true → (units.get f).enabled = true) := by
  simp only [flashSetHolds, Bool.or_eq_true, Bool.and_eq_true, bne_iff_ne, Bool.not_eq_true', List.isEmpty_eq_false_iff, List.all_eq_true,
    mem_unitsOf, ne_eq, unitsOf_eq_nil]
  tauto

/-- Check 10, of one station. -/
theorem notElsewhere_iff (other : Option TrackSnapshot) (st : Station) : (!((other.map fun o => o.enables st).getD false)) = true ↔
    ∀ o y, other = some o → o.stations.get st = some y → y.enabled = false := by
  cases other with
  | none => simp
  | some o =>
    simp only [Option.map_some, Option.getD_some, Bool.not_eq_true', Option.some.injEq, TrackSnapshot.enables]
    cases hy : o.stations.get st with
    | none =>
      refine iff_of_true rfl fun o' y ho hy' => ?_
      rw [← ho, hy] at hy'
      cases hy'
    | some y =>
      refine ⟨fun hoff o' y' ho hy' => ?_, fun h => h o y rfl hy⟩
      rw [← ho, hy] at hy'
      exact Option.some.inj hy' ▸ hoff

/-- Check 11, of the flash unit settings taken with the snapshot. -/
theorem rechargeChecks_iff (units : PerUnit UnitConfig) (taken : Bool) :
    (∀ c ∈ (if taken then (FlashId.all.filter fun u => (units.get u).enabled).map fun u =>
      ({ code := 11, item := .ofNat 8 (unitCode u), holds := within 5000 2000000 (units.get u).recharge } : Check) else []), c.holds = true) ↔
      (taken = true → ∀ f, (units.get f).enabled = true → 5000 ≤ (units.get f).recharge ∧ (units.get f).recharge ≤ 2000000) := by
  cases taken <;> simp [within_iff, unit_mem_all]

/-- All the checks of R141, one by one. -/
theorem forall_checks {format : Byte} {snap : TrackSnapshot} {units : PerUnit UnitConfig} {taken : Bool} {other : Option TrackSnapshot} :
    (∀ c ∈ checks format snap units taken other, c.holds = true) ↔
      (format = 1 ∧ trackInRange snap = true ∧ wheelSpacingHolds snap.config = true ∧ snap.config.xHA < snap.config.xHB) ∧
      (∀ st x, snap.stations.get st = some x → x.enabled = true →
        (snap.config.xHA < x.x ∧ x.x < snap.config.xHB) ∧
        ((x.delta ≤ 20000 ∧ (10 ≤ x.pulse ∧ x.pulse ≤ 5000)) ∧ (1000 ≤ x.spacing ∧ x.spacing ≤ 1000000)) ∧
        x.pulse ≤ x.spacing ∧ x.policy ≠ .other ∧
        (x.policy = .required ∨ x.policy = .preferred →
          x.flashSet ≠ 0 ∧ ∀ f, x.flashSet.getLsbD (unitCode f) = true → (units.get f).enabled = true) ∧
        ∀ o y, other = some o → o.stations.get st = some y → y.enabled = false) ∧
      (taken = true → ∀ f, (units.get f).enabled = true → 5000 ≤ (units.get f).recharge ∧ (units.get f).recharge ≤ 2000000) := by
  unfold checks
  simp only [List.forall_mem_append, forall_stationChecks, rechargeChecks_iff, List.forall_mem_cons, List.not_mem_nil, false_implies, implies_true, and_true,
    Bool.and_eq_true, decide_eq_true_eq, beq_iff_eq, bne_iff_ne, within_iff, flashSetHolds_iff, notElsewhere_iff, Nat.zero_le, true_and]
  constructor
  · rintro ⟨⟨⟨⟨⟨⟨⟨hhead, hplace⟩, hranges⟩, hpulse⟩, hpolicy⟩, hflash⟩, hother⟩, hrecharge⟩
    exact ⟨hhead, fun st x hx he => ⟨hplace st x hx he, hranges st x hx he, hpulse st x hx he, hpolicy st x hx he, hflash st x hx he,
      hother st x hx he⟩, hrecharge⟩
  · rintro ⟨hhead, hstations, hrecharge⟩
    refine ⟨⟨⟨⟨⟨⟨⟨hhead, fun st x hx he => ?_⟩, fun st x hx he => ?_⟩, fun st x hx he => ?_⟩, fun st x hx he => ?_⟩, fun st x hx he => ?_⟩,
      fun st x hx he => ?_⟩, hrecharge⟩ <;>
      obtain ⟨hplace, hranges, hpulse, hpolicy, hflash, hother⟩ := hstations st x hx he <;>
      assumption

/-- The first two checks in their order. -/
theorem firstFailure_format {format : Byte} {snap : TrackSnapshot} {units : PerUnit UnitConfig} {taken : Bool} {other : Option TrackSnapshot}
    (h : format ≠ 1) : firstFailure (checks format snap units taken other) = some { code := 1, item := 0xFF, holds := false } := by
  have hfails : (format == 1) = false := beq_eq_false_iff_ne.mpr h
  have hfirst : firstFailure (checks format snap units taken other) = some { code := 1, item := 0xFF, holds := format == 1 } :=
    List.find?_cons_of_pos (by rw [hfails]; rfl)
  rw [hfirst, hfails]

theorem firstFailure_range {snap : TrackSnapshot} {units : PerUnit UnitConfig} {taken : Bool} {other : Option TrackSnapshot}
    (h : trackInRange snap = false) : firstFailure (checks 1 snap units taken other) = some { code := 2, item := 0xFF, holds := false } := by
  have hfirst : firstFailure (checks 1 snap units taken other) = some { code := 2, item := 0xFF, holds := trackInRange snap } :=
    (List.find?_cons_of_neg (by decide)).trans (List.find?_cons_of_pos (by rw [h]; rfl))
  rw [hfirst, h]

/-- Settles O47, check by check. -/
theorem validationMakesEveryCheck : Obligations.ValidationMakesEveryCheck := by
  intro s t snap c units ranges stationHolds
  have hranges : trackInRange snap = true ↔ ranges := trackInRange_iff snap
  refine ⟨?_, firstFailure_format, fun hformat hbad => ?_⟩
  · refine (firstFailure_none_iff.trans forall_checks).trans ?_
    have htaken : (s.mode t.other == Mode.out) = true ↔ s.mode t.other = .out := beq_iff_eq
    have hother : ∀ o, (if s.mode t.other = .out then none else (s.tracks.get t.other).snapshot) = some o ↔
        s.mode t.other ≠ .out ∧ (s.tracks.get t.other).snapshot = some o := fun o => by
      by_cases h : s.mode t.other = .out <;> simp [h]
    simp only [htaken, hother, wheelSpacingHolds_iff]
    constructor
    · rintro ⟨⟨hformat, hr, hw, hb⟩, hstations, hrecharge⟩
      refine ⟨hformat, hranges.mp hr, hw, hb, fun st x hx he => ?_, hrecharge⟩
      obtain ⟨hplace, ⟨⟨hdelta, hpulse⟩, hspacing⟩, hfit, hpolicy, hflash, helse⟩ := hstations st x hx he
      exact ⟨hplace, hdelta, hpulse, hspacing, hfit, hpolicy, hflash, fun hin o y ho => helse o y ⟨hin, ho⟩⟩
    · rintro ⟨hformat, hr, hw, hb, hstations, hrecharge⟩
      refine ⟨⟨hformat, hranges.mpr hr, hw, hb⟩, fun st x hx he => ?_, hrecharge⟩
      obtain ⟨hplace, hdelta, hpulse, hspacing, hfit, hpolicy, hflash, helse⟩ := hstations st x hx he
      exact ⟨hplace, ⟨⟨hdelta, hpulse⟩, hspacing⟩, hfit, hpolicy, hflash, fun o y ho => helse ho.1 o y ho.2⟩
  · have hfails : trackInRange snap = false := Bool.eq_false_iff.mpr (mt hranges.mp hbad)
    unfold State.validate
    rw [hformat]
    exact firstFailure_range hfails

end Sys2Proof.Machine
end

section
/-! PROOFS. The maintenance line: bytes received, reads of the image and of the status window (chapter 10). O50, O51. -/

namespace Sys2Proof.Machine

/-! ### Bytes received (R173 to R176) -/

theorem receiveAll_of_running {s : State} (hs : s.Running) (bytes : List Byte) : s.receiveAll bytes = bytes.foldl State.receive s :=
  whenRunning_of_running hs _

theorem receiveAll_of_not {s : State} (hs : ¬ s.Running) (bytes : List Byte) : s.receiveAll bytes = s := whenRunning_of_not hs _

/-- Bytes received at once are the bytes received one by one. -/
theorem execAll_codeByte (bytes : List Byte) (s : State) : execAll (bytes.map .codeByte) s = .next (s.receiveAll bytes) := by
  by_cases hs : s.Running
  · rw [receiveAll_of_running hs]
    induction bytes generalizing s with
    | nil => rfl
    | cons b bytes ih =>
      have hfirst : exec (.codeByte b) s = .next (s.receive b) := congrArg Host.Outcome.next (receiveAll_of_running hs [b])
      have hnext : (s.receive b).Running := (congrArg Clock.power (receive_line s b).clock).trans hs
      rw [List.map_cons, execAll, hfirst]
      exact ih (s.receive b) hnext
  · rw [receiveAll_of_not hs]
    induction bytes with
    | nil => rfl
    | cons b bytes ih =>
      have hfirst : exec (.codeByte b) s = .next s := congrArg Host.Outcome.next (receiveAll_of_not hs [b])
      rw [List.map_cons, execAll, hfirst]
      exact ih

section Received

variable {s : State} {b : Byte}

theorem receive_in_flight (h : s.maint.commit ≠ none) : s.receive b = s.sendBytes [b] :=
  if_pos (Option.isSome_iff_ne_none.mpr h)

theorem receive_waiting (hcommit : s.maint.commit = none) (haccess : s.maint.access = .waitingCode) :
    s.receive b = (s.sendBytes [b]).collectCode b := by
  have hsome : (s.sendBytes [b]).maint.commit.isSome = false := Option.isSome_eq_false_iff.mpr (Option.isNone_iff_eq_none.mpr hcommit)
  unfold State.receive
  dsimp only
  rw [hsome]
  exact if_pos haccess

/-- A byte that the parser takes. -/
theorem receive_parsed (hcommit : s.maint.commit = none) (haccess : s.maint.access ≠ .waitingCode) :
    s.receive b = (s.sendBytes [b]).parse b := by
  have hsome : (s.sendBytes [b]).maint.commit.isSome = false := Option.isSome_eq_false_iff.mpr (Option.isNone_iff_eq_none.mpr hcommit)
  unfold State.receive
  dsimp only
  rw [hsome]
  exact if_neg haccess

/-- A byte that the idle parser takes begins a command, or none. -/
theorem receive_idle (hcommit : s.maint.commit = none) (haccess : s.maint.access ≠ .waitingCode) (hparser : s.maint.parser = .idle) :
    s.receive b = (s.sendBytes [b]).beginCommand b := by
  rw [receive_parsed hcommit haccess]
  unfold State.parse
  rw [show (s.sendBytes [b]).maint.parser = .idle from hparser]

end Received

theorem commandOf_eq_none {b : Byte} (h : b ∉ [0x4C, 0x53, 0x6C, 0x73, 0x43, 0x4B]) : commandOf b = none := by
  refine List.find?_eq_none.mpr fun c _ hc => h ?_
  rw [← beq_iff_eq.mp hc]
  cases c <;> decide

theorem beginCommand_unknown {s : State} {b : Byte} (h : b ∉ [0x4C, 0x53, 0x6C, 0x73, 0x43, 0x4B]) : s.beginCommand b = s := by
  unfold State.beginCommand
  rw [commandOf_eq_none h]

theorem collectCode_short {s : State} {b : Byte} (h : (s.maint.code ++ [b]).length < 6) :
    s.collectCode b = s.setMaint { s.maint with code := s.maint.code ++ [b] } := if_pos h

theorem collectCode_full {s : State} {b : Byte} (h : 6 ≤ (s.maint.code ++ [b]).length) :
    s.collectCode b = s.setMaint { s.maint with
      code := []
      access := if s.maint.code ++ [b] = Memory.readRange s.image codeBase 6 then .open else .shut
      sent := s.maint.sent ++ [.lineBreak] } := if_neg (Nat.not_lt.mpr h)

/-- Settles O50, by the state of the line that a byte finds. -/
theorem lineBytesAreEchoedAndCollected : Obligations.LineBytesAreEchoedAndCollected := by
  intro s b hi lo m received code echoed
  have hreceived : ∀ bytes, received bytes = .next (s.receiveAll bytes) := fun bytes => execAll_codeByte bytes s
  refine ⟨(hreceived _).symm, (hreceived _).symm, (hreceived _).symm, (hreceived _).symm, (hreceived _).symm, (hreceived _).symm,
    fun hs => ⟨congrArg Host.Outcome.next (whenRunning_of_not hs _), congrArg Host.Outcome.next (whenRunning_of_not hs _)⟩, fun c hc => ?_,
    fun hs => congrArg Host.Outcome.next (whenRunning_of_running hs _), fun hs => congrArg Host.Outcome.next (whenRunning_of_running hs _)⟩
  have hexec : exec c s = .next (s.receiveAll [b]) := by
    rcases hc with rfl | rfl | rfl <;> rfl
  have hreceive : s.Running → exec c s = .next (s.receive b) := fun hs =>
    hexec.trans (congrArg Host.Outcome.next (receiveAll_of_running hs [b]))
  have hechoed : ∀ x : Maintenance, echoed x [] = s.setMaint { x with sent := m.sent ++ [.byte b] } := fun x => by
    simp only [echoed, List.append_nil]
  refine ⟨hexec.trans (hreceived _).symm, fun hs => hexec.trans (congrArg Host.Outcome.next (receiveAll_of_not hs [b])), fun hs hcommit => ?_,
    fun hs hcommit haccess hshort => ?_, fun hs hcommit haccess hfull => ?_, fun hs hcommit haccess hparser hb => ?_⟩
  · rw [hreceive hs, receive_in_flight hcommit, hechoed]
    rfl
  · rw [hreceive hs, receive_waiting hcommit haccess, collectCode_short (s := s.sendBytes [b]) hshort, hechoed]
    rfl
  · rw [hreceive hs, receive_waiting hcommit haccess, collectCode_full (s := s.sendBytes [b]) hfull]
    intro matching
    have hmatch : (if code = Memory.readRange s.image codeBase 6 then Access.open else .shut) = if matching then .open else .shut := by
      simp only [matching, decide_eq_true_eq]
      rfl
    exact congrArg (fun a => Host.Outcome.next (s.setMaint { m with code := [], access := a, sent := m.sent ++ [.byte b] ++ [.lineBreak] })) hmatch
  · rw [hreceive hs, receive_idle hcommit haccess hparser, beginCommand_unknown hb, hechoed]
    rfl

/-! ### Reads of the line (R174) -/

/-- The address of two bytes, modulo 1 024. -/
theorem lineAddress_eq (hi lo : Byte) : lineAddress hi lo = .ofNat 10 (256 * hi.toNat + lo.toNat) := by
  have happend : (hi ++ lo).toNat = 256 * hi.toNat + lo.toNat := by
    rw [BitVec.toNat_append, ← Nat.shiftLeft_add_eq_or_of_lt lo.isLt, Nat.shiftLeft_eq]
    omega
  refine BitVec.eq_of_toNat_eq ?_
  rw [lineAddress, BitVec.toNat_setWidth, happend, BitVec.toNat_ofNat]

/-- The ten bytes of the status window, of which the first four are the latched TB. -/
def State.window (s : State) (latch : Time) : List Byte :=
  bigEndian latch ++ [.ofNat 8 (modeCode (s.mode .t0)), .ofNat 8 (modeCode (s.mode .t1)), .ofNat 8 (passageStateCode (s.passages.get .t0)),
    .ofNat 8 (passageStateCode (s.passages.get .t1)), .ofNat 8 (s.faults.flags.toNat / 256), .ofNat 8 s.faults.flags.toNat]

theorem timeByte_eq (t : Time) (k : Nat) : timeByte t k = (bigEndian t).getD k 0 := by rw [timeByte, timeBytes_eq]

theorem windowByte_eq (s : State) : ∀ offset, s.windowByte offset = (s.window s.maint.latch).getD offset 0
  | 0 => timeByte_eq _ 0
  | 1 => timeByte_eq _ 1
  | 2 => timeByte_eq _ 2
  | 3 => timeByte_eq _ 3
  | 4 => rfl
  | 5 => rfl
  | 6 => rfl
  | 7 => rfl
  | 8 => rfl
  | 9 => rfl
  | _ + 10 => rfl

theorem lineByte_eq (s : State) (addr : Nat) : s.lineByte addr =
    if addr < 512 then (if 0x1F0 ≤ addr ∧ addr ≤ 0x1F5 then 0 else Memory.read s.image addr)
    else (s.window s.maint.latch).getD (addr - 512) 0 := by
  have hcode : (codeBase ≤ addr ∧ addr < codeBase + 6) ↔ 0x1F0 ≤ addr ∧ addr ≤ 0x1F5 := by
    unfold codeBase
    omega
  unfold State.lineByte
  rw [windowByte_eq]
  simp only [hcode]
  rfl

/-- A completed read in OPEN: TB is latched at 0x200, and the byte of the address is sent. -/
theorem lineRead_open {s : State} (h : s.maint.access = .open) (addr : BitVec 10) : s.lineRead addr =
    s.setMaint { s.maint with
      parser := .idle
      lastAddress := addr
      latch := if addr = 512 then s.clock.tb else s.maint.latch
      sent := s.maint.sent ++ [.byte (if addr.toNat < 512 then
          (if 0x1F0 ≤ addr.toNat ∧ addr.toNat ≤ 0x1F5 then 0 else Memory.read s.image addr.toNat)
        else (s.window (if addr = 512 then s.clock.tb else s.maint.latch)).getD (addr.toNat - 512) 0)] } := by
  have haddr : addr.toNat = imageSize ↔ addr = 512 := by
    rw [← BitVec.toNat_inj]
    rfl
  have hlatch : (s.completeAt addr).latchFor addr.toNat = s.setMaint { s.maint with
      parser := .idle
      lastAddress := addr
      latch := if addr = 512 then s.clock.tb else s.maint.latch } := by
    unfold State.latchFor
    by_cases ha : addr = 512
    · rw [if_pos (haddr.mpr ha), if_pos ha]
      rfl
    · rw [if_neg (mt haddr.mp ha), if_neg ha]
      rfl
  refine (if_pos h).trans ?_
  simp only [hlatch]
  rw [lineByte_eq]
  rfl

theorem lineRead_shut {s : State} (h : s.maint.access ≠ .open) (addr : BitVec 10) : s.lineRead addr =
    s.setMaint { s.maint with parser := .idle, lastAddress := addr, sent := s.maint.sent ++ [.byte 0] } := if_neg h

/-! ### Commands of the line, byte by byte -/

section Parser

variable {s : State} {x : Maintenance} (hcommit : x.commit = none) (haccess : x.access ≠ .waitingCode) (b : Byte)
include hcommit haccess

theorem receive_addrHi {write : Bool} (h : x.parser = .addrHi write) : (s.setMaint x).receive b =
    s.setMaint { x with sent := x.sent ++ [.byte b], parser := .addrLo write b } := by
  rw [receive_parsed (s := s.setMaint x) hcommit haccess]
  unfold State.parse
  rw [show ((s.setMaint x).sendBytes [b]).maint.parser = .addrHi write from h]
  rfl

theorem receive_addrLo_read {hi : Byte} (h : x.parser = .addrLo false hi) : (s.setMaint x).receive b =
    (s.setMaint { x with sent := x.sent ++ [.byte b] }).lineRead (.ofNat 10 (256 * hi.toNat + b.toNat)) := by
  rw [receive_parsed (s := s.setMaint x) hcommit haccess, ← lineAddress_eq]
  unfold State.parse
  rw [show ((s.setMaint x).sendBytes [b]).maint.parser = .addrLo false hi from h]
  rfl

theorem receive_addrLo_write {hi : Byte} (h : x.parser = .addrLo true hi) : (s.setMaint x).receive b =
    s.setMaint { x with sent := x.sent ++ [.byte b], parser := .data (.ofNat 10 (256 * hi.toNat + b.toNat)) } := by
  rw [receive_parsed (s := s.setMaint x) hcommit haccess, ← lineAddress_eq]
  unfold State.parse
  rw [show ((s.setMaint x).sendBytes [b]).maint.parser = .addrLo true hi from h]
  rfl

theorem receive_data {addr : BitVec 10} (h : x.parser = .data addr) : (s.setMaint x).receive b =
    (s.setMaint { x with sent := x.sent ++ [.byte b] }).lineWrite addr b := by
  rw [receive_parsed (s := s.setMaint x) hcommit haccess]
  unfold State.parse
  rw [show ((s.setMaint x).sendBytes [b]).maint.parser = .data addr from h]
  rfl

end Parser

section Commands

variable {s : State} (hcommit : s.maint.commit = none) (haccess : s.maint.access ≠ .waitingCode) (hparser : s.maint.parser = .idle)
include hcommit haccess hparser

/-- 'L' and its address. -/
theorem receive_read (hi lo : Byte) : [commandByte .read, hi, lo].foldl State.receive s =
    (s.setMaint { s.maint with parser := .addrLo false hi, sent := s.maint.sent ++ [.byte 0x4C] ++ [.byte hi] ++ [.byte lo] }).lineRead
      (.ofNat 10 (256 * hi.toNat + lo.toNat)) := by
  have hfirst : s.receive (commandByte .read) =
      s.setMaint { s.maint with sent := s.maint.sent ++ [.byte 0x4C], parser := .addrHi false } := receive_idle hcommit haccess hparser
  simp only [List.foldl_cons, List.foldl_nil]
  rw [hfirst, receive_addrHi (write := false) (by exact hcommit) (by exact haccess) hi rfl,
    receive_addrLo_read (by exact hcommit) (by exact haccess) lo rfl]

/-- 'S', its address and its data byte. -/
theorem receive_write (hi lo data : Byte) : [commandByte .write, hi, lo, data].foldl State.receive s =
    (s.setMaint { s.maint with
      parser := .data (.ofNat 10 (256 * hi.toNat + lo.toNat))
      sent := s.maint.sent ++ [.byte 0x53] ++ [.byte hi] ++ [.byte lo] ++ [.byte data] }).lineWrite (.ofNat 10 (256 * hi.toNat + lo.toNat)) data := by
  have hfirst : s.receive (commandByte .write) =
      s.setMaint { s.maint with sent := s.maint.sent ++ [.byte 0x53], parser := .addrHi true } := receive_idle hcommit haccess hparser
  simp only [List.foldl_cons, List.foldl_nil]
  rw [hfirst, receive_addrHi (write := true) (by exact hcommit) (by exact haccess) hi rfl,
    receive_addrLo_write (by exact hcommit) (by exact haccess) lo rfl, receive_data (by exact hcommit) (by exact haccess) data rfl]

/-- 'l'. -/
theorem receive_readNext : [commandByte .readNext].foldl State.receive s =
    (s.setMaint { s.maint with sent := s.maint.sent ++ [.byte 0x6C] }).lineRead (s.maint.lastAddress + 1) :=
  receive_idle hcommit haccess hparser

/-- 's' and its data byte. -/
theorem receive_writeNext (data : Byte) : [commandByte .writeNext, data].foldl State.receive s =
    (s.setMaint { s.maint with
      parser := .data (s.maint.lastAddress + 1)
      sent := s.maint.sent ++ [.byte 0x73] ++ [.byte data] }).lineWrite (s.maint.lastAddress + 1) data := by
  have hfirst : s.receive (commandByte .writeNext) =
      s.setMaint { s.maint with sent := s.maint.sent ++ [.byte 0x73], parser := .data (s.maint.lastAddress + 1) } :=
    receive_idle hcommit haccess hparser
  simp only [List.foldl_cons, List.foldl_nil]
  rw [hfirst, receive_data (by exact hcommit) (by exact haccess) data rfl]

/-- 'K'. -/
theorem receive_checksum : [commandByte .checksum].foldl State.receive s =
    (s.setMaint { s.maint with sent := s.maint.sent ++ [.byte 0x4B] }).lineChecksum := receive_idle hcommit haccess hparser

/-- 'C'. -/
theorem receive_commit : [commandByte .commit].foldl State.receive s =
    (s.setMaint { s.maint with sent := s.maint.sent ++ [.byte 0x43] }).startCommit := receive_idle hcommit haccess hparser

end Commands

/-- Settles O51: a command's bytes are parsed to its read, which OPEN and SHUT answer each in its way. -/
theorem lineReadsImageAndWindow : Obligations.LineReadsImageAndWindow := by
  intro s hi lo m mode unit latch value sum ok sends reads hs hcommit hparser
  have hmode : ∀ t, BitVec.ofNat 8 (modeCode (s.mode t)) = mode t := fun t => by
    simp only [mode]
    cases s.mode t <;> rfl
  have hunit : ∀ t, BitVec.ofNat 8 (passageStateCode (s.passages.get t)) = unit t := fun t => by
    simp only [unit]
    cases s.passages.get t with
    | none => rfl
    | some p => cases h : p.reversed <;> simp [passageStateCode, h]
  have hvalue : ∀ addr : BitVec 10, (if addr.toNat < 512 then
        (if 0x1F0 ≤ addr.toNat ∧ addr.toNat ≤ 0x1F5 then 0 else Memory.read s.image addr.toNat)
      else (s.window (if addr = 512 then s.clock.tb else m.latch)).getD (addr.toNat - 512) 0) = value addr := fun addr => by
    simp only [State.window, hmode, hunit]
    rfl
  have hecho : ∀ (echo : List Byte) (b : Byte), m.sent ++ echo.map .byte ++ [.byte b] = m.sent ++ (echo ++ [b]).map LineItem.byte :=
    fun echo b => by rw [List.map_append, List.append_assoc]; rfl
  have hopen : ∀ (x : Maintenance) (addr : BitVec 10) (echo : List Byte), m.access = .open →
      x = { m with parser := x.parser, sent := m.sent ++ echo.map .byte } →
      (s.setMaint x).lineRead addr = sends { m with lastAddress := addr, latch := latch addr } (echo ++ [value addr]) := fun x addr echo h hx => by
    rw [hx, lineRead_open (by exact h), ← hvalue]
    refine congrArg s.setMaint ?_
    rw [Maintenance.mk.injEq]
    exact ⟨rfl, hparser.symm, rfl, rfl, rfl, rfl, hecho ..⟩
  have hshut : ∀ (x : Maintenance) (addr : BitVec 10) (echo : List Byte), m.access = .shut →
      x = { m with parser := x.parser, sent := m.sent ++ echo.map .byte } →
      (s.setMaint x).lineRead addr = sends { m with lastAddress := addr } (echo ++ [0]) := fun x addr echo h hx => by
    have hnot : m.access ≠ .open := by rw [h]; decide
    rw [hx, lineRead_shut (by exact hnot)]
    refine congrArg s.setMaint ?_
    rw [Maintenance.mk.injEq]
    exact ⟨rfl, hparser.symm, rfl, rfl, rfl, rfl, hecho ..⟩
  have hcollect : m.access = .open ∨ m.access = .shut → m.access ≠ .waitingCode := fun h => by rcases h with h | h <;> rw [h] <;> decide
  have hexec : ∀ c bytes, exec c s = .next (s.receiveAll bytes) → exec c s = .next (bytes.foldl State.receive s) :=
    fun c bytes h => h.trans (congrArg Host.Outcome.next (receiveAll_of_running hs bytes))
  have hthree : ∀ a b c : Byte, m.sent ++ [.byte a] ++ [.byte b] ++ [.byte c] = m.sent ++ ([a, b, c] : List Byte).map LineItem.byte :=
    fun a b c => by simp only [List.append_assoc]; rfl
  refine ⟨⟨fun h => ?_, fun h => ?_⟩, ⟨fun h => ?_, fun h => ?_⟩, fun h => ?_, fun h => ?_⟩
  · rw [hexec (.maintRead hi lo) _ rfl, receive_read hcommit (hcollect (.inl h)) hparser]
    exact congrArg Host.Outcome.next (hopen _ _ _ h (by rw [hthree]))
  · rw [hexec (.maintRead hi lo) _ rfl, receive_read hcommit (hcollect (.inr h)) hparser]
    exact congrArg Host.Outcome.next (hshut _ _ _ h (by rw [hthree]))
  · rw [hexec .maintReadNext _ rfl, receive_readNext hcommit (hcollect (.inl h)) hparser]
    exact congrArg Host.Outcome.next (hopen _ _ _ h rfl)
  · rw [hexec .maintReadNext _ rfl, receive_readNext hcommit (hcollect (.inr h)) hparser]
    exact congrArg Host.Outcome.next (hshut _ _ _ h rfl)
  · rw [hexec .checksum _ rfl, receive_checksum hcommit (hcollect (.inl h)) hparser]
    have hok : (if checksumMatches s.image then (0x01 : Byte) else 0x00) = if ok then 1 else 0 := by rw [checksumMatches_iff]
    have hsum : bytes2 (checksumOf s.image) = [.ofNat 8 (sum / 256), .ofNat 8 sum] := congrArg bytes2 (checksumOf_eq s.image)
    refine congrArg Host.Outcome.next ((if_pos h).trans (congrArg s.setMaint ?_))
    rw [Maintenance.mk.injEq]
    refine ⟨rfl, rfl, rfl, rfl, rfl, rfl, ?_⟩
    refine (List.append_assoc ..).trans (congrArg (m.sent ++ ·) ?_)
    rw [← hok, setMaint_image, hsum]
    rfl
  · have hnot : m.access ≠ .open := by rw [h]; decide
    rw [hexec .checksum _ rfl, receive_checksum hcommit (hcollect (.inr h)) hparser]
    refine congrArg Host.Outcome.next ((if_neg hnot).trans (congrArg s.setMaint ?_))
    rw [Maintenance.mk.injEq]
    exact ⟨rfl, rfl, rfl, rfl, rfl, rfl, List.append_assoc ..⟩

end Sys2Proof.Machine
end

section
/-! PROOFS. The maintenance line: writes of the image (chapter 10; R14). O52. -/

namespace Sys2Proof.Machine

/-- A fold of which one element alone changes the state it meets, before or after it. -/
theorem foldl_at_one {α β : Type} {f : α → β → α} {l : List β} {b : β} {a : α} (hl : l.Nodup) (hb : b ∈ l)
    (hbefore : ∀ c ∈ l, c ≠ b → f a c = a) (hafter : ∀ c ∈ l, c ≠ b → f (f a b) c = f a b) : l.foldl f a = f a b := by
  have hfixed : ∀ (k : List β) (x : α), (∀ c ∈ k, f x c = x) → k.foldl f x = x := fun k x hk => by
    induction k with
    | nil => rfl
    | cons c k ih => rw [List.foldl_cons, hk c List.mem_cons_self, ih fun d hd => hk d (List.mem_cons_of_mem _ hd)]
  induction l with
  | nil => exact absurd hb List.not_mem_nil
  | cons c l ih =>
    obtain ⟨hc, hl⟩ := List.nodup_cons.mp hl
    rw [List.foldl_cons]
    by_cases h : c = b
    · subst h
      exact hfixed l _ fun d hd => hafter d (List.mem_cons_of_mem _ hd) fun hdc => hc (hdc ▸ hd)
    · rw [hbefore c List.mem_cons_self h]
      exact ih hl ((List.mem_cons.mp hb).resolve_left (Ne.symm h)) (fun d hd => hbefore d (List.mem_cons_of_mem _ hd))
        fun d hd => hafter d (List.mem_cons_of_mem _ hd)

/-! ### Active levels in OUT (R6, R14, R172) -/

/-- The byte of the image that holds an input's active level (R179). -/
def levelAddress (t : Track) (i : Input) : Nat := trackBase t + 8 + inputCode i

theorem levelAddress_inj {t k : Track} {i j : Input} (h : levelAddress t i = levelAddress k j) : t = k ∧ i = j := by
  rcases i with (_ | _) | (_ | _) <;> rcases j with (_ | _) | (_ | _) <;> cases t <;> cases k <;> simp_all [levelAddress, trackBase, inputCode]

theorem imageTrack_activeHigh (m : Memory) (t : Track) (i : Input) :
    (imageTrack m t).activeHigh.get i = (Memory.read m (levelAddress t i) != 0) := PerInput.get_tabulate ..

section Levels

variable {w : State} {t : Track} {i : Input}

/-- The active level in use while a track is OUT is the image's. -/
theorem config_activeHigh_of_out (h : w.mode t = .out) : (w.config t).activeHigh.get i = (Memory.read w.image (levelAddress t i) != 0) := by
  unfold State.config
  rw [show (w.tracks.get t).mode = .out from h]
  exact imageTrack_activeHigh ..

theorem settle_same {old : Memory} (h : w.mode t = .out)
    (hsame : Memory.read old (levelAddress t i) = 0 ↔ Memory.read w.image (levelAddress t i) = 0) :
    w.settleActiveLevel (imageTrack old t).activeHigh t i = w := by
  refine if_pos ?_
  rw [config_activeHigh_of_out h, imageTrack_activeHigh, Bool.eq_iff_iff, bne_iff_ne, bne_iff_ne]
  exact not_congr hsame.symm

theorem settle_changed {old : Memory} (h : w.mode t = .out)
    (hchanged : ¬ (Memory.read old (levelAddress t i) = 0 ↔ Memory.read w.image (levelAddress t i) = 0)) :
    w.settleActiveLevel (imageTrack old t).activeHigh t i = w.takesNewLevel t i := by
  refine (if_neg ?_).trans (changeActiveLevel_eq i (by rw [h]; decide))
  rw [config_activeHigh_of_out h, imageTrack_activeHigh, Bool.eq_iff_iff, bne_iff_ne, bne_iff_ne]
  exact fun hsame => hchanged (not_iff_not.mp hsame).symm

theorem takesNewLevel_only (h : w.mode t ≠ .test) : OnlyDetectors w (w.takesNewLevel t i) := changeActiveLevel_eq i h ▸ changeActiveLevel_only ..

end Levels

/-- The settling of one track's active levels after a write of the image. -/
def State.settleTrack (old : Memory) (w : State) (t : Track) : State :=
  if w.mode t = .out then Input.all.foldl (fun w i => w.settleActiveLevel (imageTrack old t).activeHigh t i) w else w

theorem writeImage_eq (s : State) (addr : Nat) (b : Byte) :
    s.writeImage addr b = Track.all.foldl (State.settleTrack s.image) (s.setImage (Memory.write s.image addr b)) := rfl

theorem settleTrack_same {old : Memory} {w : State} {t : Track}
    (h : w.mode t = .out → ∀ i, Memory.read old (levelAddress t i) = 0 ↔ Memory.read w.image (levelAddress t i) = 0) :
    w.settleTrack old t = w := by
  unfold State.settleTrack
  split
  · rename_i hout
    have hfixed : ∀ l : List Input, l.foldl (fun w i => w.settleActiveLevel (imageTrack old t).activeHigh t i) w = w := fun l => by
      induction l with
      | nil => rfl
      | cons i l ih => rw [List.foldl_cons, settle_same hout (h hout i), ih]
    exact hfixed _
  · rfl

/-- One active level of a track changes. -/
theorem settleTrack_changed {old : Memory} {w : State} {t : Track} {i : Input} (hout : w.mode t = .out)
    (hchanged : ¬ (Memory.read old (levelAddress t i) = 0 ↔ Memory.read w.image (levelAddress t i) = 0))
    (hother : ∀ j, j ≠ i → (Memory.read old (levelAddress t j) = 0 ↔ Memory.read w.image (levelAddress t j) = 0)) :
    w.settleTrack old t = w.takesNewLevel t i := by
  have honly : OnlyDetectors w (w.takesNewLevel t i) := takesNewLevel_only (by rw [hout]; decide)
  have hfirst : w.settleActiveLevel (imageTrack old t).activeHigh t i = w.takesNewLevel t i := settle_changed hout hchanged
  refine (if_pos hout).trans ((foldl_at_one (b := i) (by decide) (input_mem_all i) (fun j _ hj => settle_same hout (hother j hj)) fun j _ hj => ?_).trans hfirst)
  rw [hfirst]
  refine settle_same ((honly.controls.mode t).trans hout) ?_
  rw [honly.image]
  exact hother j hj

section Writes

variable {s : State} {addr : Nat} {data : Byte} (hwf : Memory.wf s.image)
include hwf

theorem read_written (a : Nat) (hsame : a = addr → (Memory.read s.image addr = 0 ↔ data = 0)) :
    Memory.read s.image a = 0 ↔ Memory.read (s.setImage (Memory.write s.image addr data)).image a = 0 := by
  rw [setImage_image, Memory.read_write hwf]
  by_cases h : a = addr
  · rw [if_pos h, h]
    exact hsame h
  · rw [if_neg h]

/-- A write that leaves the active levels of the tracks in OUT. -/
theorem writeImage_same (h : ∀ t i, s.mode t = .out → addr = levelAddress t i → (Memory.read s.image addr = 0 ↔ data = 0)) :
    s.writeImage addr data = s.setImage (Memory.write s.image addr data) := by
  have hsame : ∀ t, (s.setImage (Memory.write s.image addr data)).settleTrack s.image t = s.setImage (Memory.write s.image addr data) :=
    fun t => settleTrack_same fun hout i => read_written hwf _ fun ha => h t i hout ha.symm
  rw [writeImage_eq, show Track.all = [.t0, .t1] from rfl]
  simp only [List.foldl_cons, List.foldl_nil, hsame]

/-- A write that changes the active level of an input of a track in OUT. -/
theorem writeImage_changed {t : Track} {i : Input} (hout : s.mode t = .out) (haddr : addr = levelAddress t i)
    (hchanged : ¬ (Memory.read s.image addr = 0 ↔ data = 0)) :
    s.writeImage addr data = (s.setImage (Memory.write s.image addr data)).takesNewLevel t i := by
  have hother : ∀ k j, ¬ (k = t ∧ j = i) → (Memory.read s.image (levelAddress k j) = 0 ↔
      Memory.read (s.setImage (Memory.write s.image addr data)).image (levelAddress k j) = 0) := fun k j hne =>
    read_written hwf _ fun ha => absurd (levelAddress_inj (ha.trans haddr)) hne
  have hthere : ¬ (Memory.read s.image (levelAddress t i) = 0 ↔
      Memory.read (s.setImage (Memory.write s.image addr data)).image (levelAddress t i) = 0) := by
    rw [setImage_image, Memory.read_write hwf, if_pos haddr.symm, ← haddr]
    exact hchanged
  have hfirst := settleTrack_changed (w := s.setImage (Memory.write s.image addr data)) hout hthere fun j hj => hother t j fun h => hj h.2
  have honly : OnlyDetectors (s.setImage (Memory.write s.image addr data)) ((s.setImage (Memory.write s.image addr data)).takesNewLevel t i) :=
    takesNewLevel_only (by rw [show (s.setImage (Memory.write s.image addr data)).mode t = .out from hout]; decide)
  rw [writeImage_eq]
  refine (foldl_at_one (b := t) (by decide) (track_mem_all t) (fun k _ hk => settleTrack_same fun _ j => hother k j fun h => hk h.1)
    fun k _ hk => ?_).trans hfirst
  rw [hfirst]
  refine settleTrack_same fun _ j => ?_
  rw [honly.image]
  exact hother k j fun h => hk h.1

end Writes

section LineWrites

variable {s : State} (addr : BitVec 10) (data : Byte)

theorem lineWrite_open (hopen : s.maint.access = .open) (haddr : addr.toNat < 512) :
    s.lineWrite addr data = (s.completeAt addr).writeImage addr.toNat data := if_pos ⟨hopen, haddr⟩

theorem lineWrite_ignored (h : s.maint.access = .shut ∨ 512 ≤ addr.toNat) : s.lineWrite addr data = s.completeAt addr := by
  refine if_neg fun ⟨hopen, haddr⟩ => ?_
  rcases h with hshut | hbeyond
  · rw [show s.maint.access = .open from hopen] at hshut
    exact absurd hshut (by decide)
  · exact absurd haddr (Nat.not_lt.mpr hbeyond)

end LineWrites

/-- Writes that differ in bits without a field leave the same settings. -/
theorem sameSettings_of_writes {m : Memory} (hwf : Memory.wf m) {addr : Nat} {data other : Byte}
    (h : data &&& fieldBits addr = other &&& fieldBits addr) : SameSettings (Memory.write m addr data) (Memory.write m addr other) :=
  sameSettings_of_fieldBits fun a _ => by
    rw [Memory.read_write hwf, Memory.read_write hwf]
    by_cases ha : a = addr
    · rw [if_pos ha, if_pos ha, ha]
      exact h
    · rw [if_neg ha, if_neg ha]

/-- Settles O52: a command's bytes are parsed to its write, which settles the active levels it changes, one at most. -/
theorem lineWritesTheImage : Obligations.LineWritesTheImage := by
  intro s hi lo data m writes hs hcommit hparser haccess hmemory
  have hwf : Memory.wf s.image := hmemory.image
  have hwrites : ∀ (c : Instr) (x : Maintenance) (addr : BitVec 10) (echo : List Byte), exec c s = .next ((s.setMaint x).lineWrite addr data) →
      x = { m with parser := x.parser, sent := m.sent ++ echo.map .byte } → writes c addr echo := fun c x addr echo hexec hx => by
    unfold writes
    intro kept written
    have hkept : (s.setMaint x).completeAt addr = kept := by
      rw [hx]
      refine congrArg s.setMaint ?_
      rw [Maintenance.mk.injEq]
      exact ⟨rfl, hparser.symm, rfl, rfl, rfl, rfl, rfl⟩
    have haccess' : (s.setMaint x).maint.access = m.access := by rw [hx]; rfl
    have hopen : m.access = .open → addr.toNat < 512 → exec c s = .next (kept.writeImage addr.toNat data) := fun h haddr => by
      rw [hexec, lineWrite_open addr data (haccess'.trans h) haddr, hkept]
    refine ⟨fun h => ?_, fun h haddr hsame => ?_, fun t i h hout haddr hchanged => ?_, fun other _ hbits => sameSettings_of_writes hwf hbits⟩
    · rw [hexec, lineWrite_ignored addr data (by rwa [haccess']), hkept]
    · rw [hopen h haddr, writeImage_same (s := kept) hwf fun t i hout ha => hsame t i hout ha]
      rfl
    · have hlt : addr.toNat < 512 := by
        rw [haddr]
        rcases i with (_ | _) | (_ | _) <;> cases t <;> decide
      rw [hopen h hlt, writeImage_changed (s := kept) hwf hout haddr hchanged]
      rfl
  have hexec : ∀ c bytes, exec c s = .next (s.receiveAll bytes) → exec c s = .next (bytes.foldl State.receive s) :=
    fun c bytes h => h.trans (congrArg Host.Outcome.next (receiveAll_of_running hs bytes))
  refine ⟨hwrites _ _ _ _ ((hexec (.maintWrite hi lo data) _ rfl).trans (congrArg Host.Outcome.next (receive_write hcommit haccess hparser hi lo data))) ?_,
    hwrites _ _ _ _ ((hexec (.maintWriteNext data) _ rfl).trans (congrArg Host.Outcome.next (receive_writeNext hcommit haccess hparser data))) ?_⟩
  · simp only [List.append_assoc]
    rfl
  · simp only [List.append_assoc]
    rfl

end Sys2Proof.Machine
end

section
/-! PROOFS. The commit (chapter 10, R176). O53. -/

namespace Sys2Proof.Machine

/-- What the end of a page write leaves in the store: nothing outside the page, and in the page each byte whose cell does not fail. -/
theorem endPage_stored {s : State} (hmemory : MemoryInv s) {w : CommitWrite} (hw : s.maint.commit = some w) :
    (∀ a, a < 16 * w.page ∨ 16 * w.page + 16 ≤ a → Memory.read (s.endPage w).store a = Memory.read s.store a) ∧
      (∀ k b, w.bytes[k]? = some b → Config.cellFails s.choices (16 * w.page + k) = false →
        Memory.read (s.endPage w).store (16 * w.page + k) = b) := by
  obtain ⟨hpage, hlength⟩ := hmemory.commit w hw
  have hfits : pageSize * w.page + w.bytes.length ≤ imageSize := by
    rw [hlength, pageSize, imageSize]
    omega
  have hread : ∀ a, Memory.read (s.endPage w).store a = _ := writeCells_read s.choices w.bytes hmemory.store hfits
  refine ⟨fun a ha => ?_, fun k b hb hcell => ?_⟩
  · have hnone : (if pageSize * w.page ≤ a then w.bytes[a - pageSize * w.page]? else none) = none := by
      split
      · refine List.getElem?_eq_none ?_
        rw [hlength]
        unfold pageSize at *
        omega
      · rfl
    rw [hread, hnone]
  · have hsome : (if pageSize * w.page ≤ 16 * w.page + k then w.bytes[16 * w.page + k - pageSize * w.page]? else none) = some b := by
      refine (if_pos (Nat.le_add_right _ _)).trans ?_
      rw [show 16 * w.page + k - pageSize * w.page = k from Nat.add_sub_cancel_left _ _]
      exact hb
    rw [hread, hsome]
    dsimp only
    rw [hcell]
    rfl

theorem storeVerifies_iff {s : State} : s.storeVerifies = true ↔ ∀ a, a < 512 → Memory.read s.store a = Memory.read s.image a := by
  simp only [State.storeVerifies, List.all_eq_true, List.mem_range, beq_iff_eq]
  rfl

section Commits

variable {s : State} {w : CommitWrite}

theorem commitPage_due (hw : s.maint.commit = some w) (hdue : w.pageEndAt = s.clock.tb) (hpage : w.page < 31) :
    s.commitPage = (s.endPage w).beginPage (w.page + 1) := by
  unfold State.commitPage
  rw [hw]
  exact if_pos ⟨isDue_some.mpr hdue, hpage⟩

theorem commitEnd_due (hw : s.maint.commit = some w) (hdue : w.pageEndAt = s.clock.tb) (hpage : w.page = 31) {u : State}
    (hu : u = (s.endPage w).updateMaint fun m => { m with commit := none, parser := .idle }) :
    s.commitEnd = if u.storeVerifies then u.sendBytes [0x00]
      else (u.raise { kind := .storeWrite, track := none, item := .none, time := u.now }).sendBytes [0x02] := by
  subst hu
  unfold State.commitEnd
  rw [hw]
  exact if_pos ⟨isDue_some.mpr hdue, Nat.le_of_eq hpage.symm⟩

end Commits

/-- A fault raised in a state with the faults and the ports of `s`. -/
theorem raise_of_same {s v : State} (f : RaisedFault) (hfaults : v.faults = s.faults) (hports : v.ports = s.ports) :
    v.raise f = (v.setFaults (s.raise f).faults).setPorts (s.raise f).ports := by
  simp only [State.raise, State.offer, setPorts_faults, setPorts_ports, setFaults_faults, setFaults_ports, hfaults, hports]
  rfl

/-- Settles O53, by the beginning of the commit, the end of a page and the end of the last page. -/
theorem commitWritesTheStorePageByPage : Obligations.CommitWritesTheStorePageByPage := by
  intro s m sum page hs hmemory
  have hcommand : m.commit = none → m.access ≠ .waitingCode → m.parser = .idle →
      exec .commit s = .next (s.setMaint { m with sent := m.sent ++ [.byte 0x43] }).startCommit := fun hcommit haccess hparser =>
    congrArg Host.Outcome.next ((receiveAll_of_running hs _).trans (receive_commit hcommit haccess hparser))
  refine ⟨fun hcommit hparser hopen => ?_, fun hcommit hparser hshut => ?_, fun w hw hdue => ?_⟩
  · let high : Byte := .ofNat 8 (sum / 256)
    let image := Memory.write (Memory.write s.image 0x1FE high) 0x1FF (.ofNat 8 sum)
    have hread : ∀ a, Memory.read image a = if a = 0x1FF then .ofNat 8 sum else if a = 0x1FE then high else Memory.read s.image a := fun a => by
      rw [Memory.read_write (Memory.write_wf hmemory.image (by decide) high), Memory.read_write hmemory.image]
    refine ⟨(s.setImage image).setMaint { m with
      sent := m.sent ++ [.byte 0x43]
      commit := some { page := 0, pageEndAt := s.clock.tb + 5000, bytes := page image 0 } }, ?_, ?_, ?_, fun a hhigh hlow => ?_, rfl⟩
    · have haccess : m.access ≠ .waitingCode := by rw [hopen]; decide
      rw [hcommand hcommit haccess hparser]
      refine congrArg Host.Outcome.next ((if_pos hopen).trans ?_)
      rw [setMaint_image, checksumOf_eq]
      rfl
    · exact (hread _).trans rfl
    · exact (hread _).trans rfl
    · exact (hread a).trans ((if_neg hlow).trans (if_neg hhigh))
  · have hnot : m.access ≠ .open ∧ m.access ≠ .waitingCode := by rw [hshut]; decide
    rw [hcommand hcommit hnot.2 hparser]
    refine congrArg Host.Outcome.next ((if_neg hnot.1).trans (congrArg s.setMaint ?_))
    rw [Maintenance.mk.injEq]
    exact ⟨rfl, rfl, rfl, rfl, rfl, rfl, List.append_assoc ..⟩
  · intro stored
    have hstored := endPage_stored hmemory hw
    refine ⟨fun hpage => ⟨_, congrArg Host.Outcome.next ((whenRunning_of_running hs _).trans (commitPage_due hw hdue hpage)), hstored, rfl⟩,
      fun hpage => ?_⟩
    have hexec : exec .commitEnd s = .next s.commitEnd := congrArg Host.Outcome.next (whenRunning_of_running hs _)
    have hpages : s.endPage w = (s.setStore (s.endPage w).store).setChoices (s.choices + 1) := rfl
    generalize (s.endPage w).store = store at hpages hstored
    have hend := commitEnd_due hw hdue hpage (u := ((s.setStore store).setChoices (s.choices + 1)).setMaint { m with commit := none, parser := .idle })
      (by rw [hpages]; rfl)
    rw [hexec, hend]
    refine ⟨_, rfl, ?_⟩
    have hverify : (((s.setStore store).setChoices (s.choices + 1)).setMaint { m with commit := none, parser := .idle }).storeVerifies = true ↔
      ∀ a, a < 512 → Memory.read store a = Memory.read s.image a := storeVerifies_iff
    by_cases hequal : ∀ a, a < 512 → Memory.read store a = Memory.read s.image a
    · rw [if_pos (hverify.mpr hequal)]
      exact ⟨hstored, fun _ => rfl, fun hnot => absurd hequal hnot⟩
    · rw [if_neg (mt hverify.mp hequal), raise_of_same (s := s) _ rfl rfl]
      exact ⟨hstored, fun heq => absurd heq hequal, fun _ => rfl⟩

end Sys2Proof.Machine
end

section
/-! PROOFS. The first edges after TB starts (R5, R23, R51): what a wheel edge and a beam edge stamped 0 leave, on a part whose ports take no
notices and whose table has room. For O9. -/

namespace Sys2Proof.Machine

/-! ### What the first samples may change -/

/-- At most the conditioners, the passages with their counter, the head detector units, the record table and the model's choice counter
change. -/
structure OnlySampling (s u : State) : Prop where
  eq : u = { s with
    inputs := u.inputs, passages := u.passages, nextPassage := u.nextPassage, heads := u.heads, table := u.table, choices := u.choices }

theorem OnlySampling.refl (s : State) : OnlySampling s s := ⟨rfl⟩

theorem OnlySampling.trans {s u v : State} (h : OnlySampling s u) (k : OnlySampling u v) : OnlySampling s v :=
  ⟨k.eq.trans (congrArg (fun x : State => { x with
    inputs := v.inputs, passages := v.passages, nextPassage := v.nextPassage, heads := v.heads, table := v.table,
    choices := v.choices }) h.eq)⟩

theorem OnlySampling.clock {s u : State} (h : OnlySampling s u) : u.clock = s.clock := (congrArg State.clock h.eq).trans rfl

theorem setConditioner_sampling (s : State) (t : Track) (i : Input) (c : Conditioner) : OnlySampling s (s.setConditioner t i c) := ⟨rfl⟩

/-! ### Ports that take no notices (R160, R163) -/

/-- Every port has both masks clear, as its reset leaves them. -/
def Silent (s : State) : Prop := ∀ p, (s.ports.get p).trackMask = 0 ∧ (s.ports.get p).classMask = 0

theorem wantsClass_of_silent {s : State} (h : Silent s) (p : PortId) (c : NoticeClass) : (s.ports.get p).wantsClass c = false := by
  unfold Port.wantsClass
  rw [(h p).2]
  exact BitVec.getLsbD_zero

/-- A notice that no port is selected for changes nothing. -/
theorem offer_of_none {s : State} {named : PortId → Port → Bool} (h : ∀ p, named p (s.ports.get p) = false) (n : Notice) : s.offer named n = s := by
  have hsame : (s.offer named n).ports = s.ports := PerPort.ext_get fun p => by
    rw [offer_ports_get, h]
    rfl
  exact congrArg s.setPorts hsame

theorem offerByTrack_of_silent {s : State} (h : Silent s) (c : NoticeClass) (t : Track) (n : Notice) : s.offerByTrack c t n = s :=
  offer_of_none (fun p => by rw [wantsClass_of_silent h, Bool.and_false]) n

theorem raise_of_silent {s : State} (h : Silent s) (f : RaisedFault) :
    s.raise f = s.setFaults { flags := s.faults.flags ||| faultBit f.kind, held := s.faults.held.or (some f) } :=
  offer_of_none (s := s.setFaults _) (fun p => wantsClass_of_silent h p .fault) _

/-! ### An active wheel edge (R23, R26 to R28) -/

/-- What an active edge of a wheel leaves, but for the passage of its track. -/
structure WheelEdged (t : Track) (v u : State) : Prop where
  sampling : OnlySampling v u
  inputs : u.inputs = v.inputs
  table : u.table = v.table
  heads : ∀ k b, ((u.heads.get k).get b).state = ((v.heads.get k).get b).state
  passages : ∀ k, k ≠ t → u.passages.get k = v.passages.get k

theorem assign_state (h : HeadUnit) (r : Role) : (h.assign r).state = h.state := by
  rw [assign_eq]
  split <;> rfl

theorem WheelEdged.refl (t : Track) (v : State) : WheelEdged t v v := ⟨.refl v, rfl, rfl, fun _ _ => rfl, fun _ _ => rfl⟩

theorem openPassage_edged {v : State} (hsilent : Silent v) (t : Track) (w : Wheel) (x : Time) : WheelEdged t v (v.openPassage t w x) := by
  rw [openPassage_eq, offerByTrack_of_silent hsilent]
  refine ⟨⟨rfl⟩, rfl, rfl, fun k b => ?_, fun k hk => ?_⟩
  · rw [setPorts_heads]
    by_cases hk : t = k
    · subst hk
      rw [assignRoles_get, assign_state]
      rfl
    · exact congrArg (fun hs : PerBeam HeadUnit => (hs.get b).state) (PerTrack.get_modify_ne _ _ hk)
  · exact PerTrack.get_set_ne _ _ hk.symm

/-- The passage that an opening edge leaves runs, without an orphan. -/
theorem openPassage_opens (v : State) (t : Track) (w : Wheel) (x : Time) :
    ∃ p, (v.openPassage t w x).passages.get t = some p ∧ p.reversed = false ∧ p.orphan = 0 := by
  refine ⟨{ openingPassage v.nextPassage w x with leading := 1, queue := [x], quietAt := some (quietDeadline (v.config t) x) }, ?_, rfl, rfl⟩
  rw [openPassage_eq]
  exact PerTrack.get_set_self ..

/-- An active edge that an open passage without an orphan takes changes that passage alone, and does not reverse it. -/
theorem takeWheelEdge_running {v : State} {t : Track} {p : Passage} (hrun : p.reversed = false) (horphan : p.orphan = 0) (w : Wheel) (x : Time) :
    ∃ q, v.takeWheelEdge t w true x p = v.setPassages (v.passages.set t (some q)) ∧ q.reversed = false := by
  have htouch : (p.touch (v.config t) x).reversed = false ∧ (p.touch (v.config t) x).orphan = 0 := by
    unfold Passage.touch
    split <;> exact ⟨hrun, horphan⟩
  obtain ⟨hrun', horphan'⟩ := htouch
  have hruns : (p.touch (v.config t) x).completesOrphanRun (v.config t) x = false := by
    unfold Passage.completesOrphanRun
    rw [horphan']
    exact Bool.and_false _
  unfold State.takeWheelEdge
  dsimp only
  rw [hrun', hruns]
  by_cases hw : w = leadingWheel (p.touch (v.config t) x).direction
  · refine ⟨(p.touch (v.config t) x).leadingEdge x, ?_, ?_⟩
    · simp only [Bool.not_true, Bool.false_eq_true, if_false, if_pos hw]
    · unfold Passage.leadingEdge
      split <;> exact hrun'
  · refine ⟨(p.touch (v.config t) x).trailingEdge (v.config t) x, ?_, ?_⟩
    · simp only [Bool.not_true, Bool.false_eq_true, if_false, if_neg hw]
    · rw [Passage.trailingEdge_reversed]
      exact hrun'

/-- An active edge of a wheel input of a part whose ports are silent, where a passage open runs without an orphan. -/
theorem wheelEdge_edged {v : State} (hsilent : Silent v) {t : Track}
    (hpassage : ∀ p, v.passages.get t = some p → p.reversed = false ∧ p.orphan = 0) (w : Wheel) (x : Time) :
    WheelEdged t v (v.wheelEdge t w true x) ∧
      ∀ q, (v.wheelEdge t w true x).passages.get t = some q →
        q.reversed = false ∧ (v.passages.get t = none → v.mode t ≠ .out ∧ q.orphan = 0) := by
  cases hp : v.passages.get t with
  | none =>
    rw [wheelEdge_of_idle hp, if_pos rfl]
    split
    · refine ⟨.refl t v, fun q hq => ?_⟩
      rw [hp] at hq
      cases hq
    · rename_i hmode
      refine ⟨openPassage_edged hsilent t w x, fun q hq => ?_⟩
      obtain ⟨p, hopen, hrun, horphan⟩ := openPassage_opens v t w x
      rw [hopen] at hq
      obtain rfl := Option.some.inj hq
      exact ⟨hrun, fun _ => ⟨hmode, horphan⟩⟩
  | some p =>
    obtain ⟨hrun, horphan⟩ := hpassage p hp
    by_cases hmode : v.mode t = .out
    · rw [wheelEdge_of_out hmode]
      refine ⟨.refl t v, fun q hq => ⟨?_, nofun⟩⟩
      rw [hp] at hq
      obtain rfl := Option.some.inj hq
      exact hrun
    · obtain ⟨q', htake, hq'⟩ := takeWheelEdge_running (v := v) (t := t) hrun horphan w x
      have hedge : v.wheelEdge t w true x = v.setPassages (v.passages.set t (some q')) := by
        rw [← htake]
        unfold State.wheelEdge
        rw [if_neg hmode, hp]
      rw [hedge]
      refine ⟨⟨⟨rfl⟩, rfl, rfl, fun _ _ => rfl, fun k hk => PerTrack.get_set_ne _ _ hk.symm⟩, fun q hq => ⟨?_, nofun⟩⟩
      rw [setPassages_passages, PerTrack.get_set_self] at hq
      obtain rfl := Option.some.inj hq
      exact hq'

/-! ### An active beam edge (R51, R52) -/

/-- What the active edge that begins head `h` leaves: one record at most, and of the passages the head count alone. -/
structure BeamEdged (t : Track) (b : Beam) (h : Head) (v u : State) : Prop where
  sampling : OnlySampling v u
  inputs : u.inputs = v.inputs
  table : u.table.records.length ≤ v.table.records.length + 1
  head : ∃ r, ((u.heads.get t).get b).state = .covered { h with record := r }
  heads : ∀ k j, ¬ (k = t ∧ j = b) → ((u.heads.get k).get j).state = ((v.heads.get k).get j).state
  passages : ∀ k q, u.passages.get k = some q → ∃ p, v.passages.get k = some p ∧ q.reversed = p.reversed ∧ q.orphan = p.orphan

theorem get_setHead (s : State) (t : Track) (b : Beam) (u : HeadUnit) (k : Track) (j : Beam) :
    ((s.setHead t b u).heads.get k).get j = if k = t ∧ j = b then u else (s.heads.get k).get j := by
  unfold State.setHead
  rw [setHeads_heads]
  by_cases hk : t = k
  · subst hk
    rw [PerTrack.get_modify_self]
    by_cases hj : b = j
    · subst hj
      rw [PerBeam.get_set_self, if_pos ⟨rfl, rfl⟩]
    · rw [PerBeam.get_set_ne _ _ hj, if_neg fun h => hj h.2.symm]
  · rw [PerTrack.get_modify_ne _ _ hk, if_neg fun h => hk h.1.symm]

/-- A table with room gives a head its record. -/
theorem allocate_of_room {v : State} (hroom : v.table.records.length < 16) (t : Track) (p : Passage) (x : Time) :
    ∃ n r, v.allocate t p x = some (n, v.setTable { records := v.table.records ++ [r], next := nextNumber n }) := by
  have hmake : makeRoom v.table.records = some v.table.records := if_pos hroom
  unfold State.allocate
  rw [hmake]
  exact ⟨_, _, rfl⟩

/-- The head counted and its record made. -/
theorem recordHead_of_room {v : State} (hroom : v.table.records.length < 16) {t : Track} {p : Passage} (hp : v.passages.get t = some p)
    (b : Beam) (h : Head) : ∃ n r, v.recordHead t b h =
      ((v.setPassages (v.passages.set t (some { p with heads := satSucc p.heads }))).setTable
        { records := v.table.records ++ [r], next := nextNumber n }).setHead t b
          { (v.heads.get t).get b with state := .covered { h with record := some n } } := by
  obtain ⟨n, r, halloc⟩ := allocate_of_room (v := v.setPassages (v.passages.set t (some { p with heads := satSucc p.heads }))) hroom t p h.tLead
  refine ⟨n, r, (recordHead_of_open hp b h).trans ?_⟩
  rw [halloc]
  rfl

theorem setHead_edged (v : State) (t : Track) (b : Beam) {u : HeadUnit} {h : Head} (hu : u.state = .covered h) : BeamEdged t b h v (v.setHead t b u) := by
  refine ⟨⟨rfl⟩, rfl, Nat.le_succ _, ⟨h.record, ?_⟩, fun k j hkj => ?_, fun _ q hq => ⟨q, hq, rfl, rfl⟩⟩
  · rw [get_setHead, if_pos ⟨rfl, rfl⟩]
    exact hu
  · rw [get_setHead, if_neg hkj]

theorem recordHead_edged {v : State} (hroom : v.table.records.length < 16) {t : Track} {b : Beam} {h : Head}
    (hhead : ((v.heads.get t).get b).state = .covered h) : BeamEdged t b h v (v.recordHead t b h) := by
  cases hp : v.passages.get t with
  | none =>
    have hsame : v.recordHead t b h = v := by
      unfold State.recordHead
      rw [hp]
    rw [hsame]
    exact ⟨.refl v, rfl, Nat.le_succ _, ⟨h.record, hhead⟩, fun _ _ _ => rfl, fun _ q hq => ⟨q, hq, rfl, rfl⟩⟩
  | some p =>
    obtain ⟨n, r, hrecord⟩ := recordHead_of_room hroom hp b h
    rw [hrecord]
    refine ⟨⟨rfl⟩, rfl, Nat.le_of_eq (List.length_append ..), ⟨some n, ?_⟩, fun k j hkj => ?_, fun k q hq => ?_⟩
    · rw [get_setHead, if_pos ⟨rfl, rfl⟩]
    · rw [get_setHead, if_neg hkj]
      rfl
    · have hq' : (v.passages.set t (some { p with heads := satSucc p.heads })).get k = some q := hq
      by_cases hk : t = k
      · subst hk
        rw [PerTrack.get_set_self] at hq'
        obtain rfl := Option.some.inj hq'
        exact ⟨p, hp, rfl, rfl⟩
      · rw [PerTrack.get_set_ne _ _ hk] at hq'
        exact ⟨q, hq', rfl, rfl⟩

/-- A head's record joins what its beginning left. -/
theorem BeamEdged.trans {t : Track} {b : Beam} {h : Head} {v u w : State} (hfirst : BeamEdged t b h v u) (htable : u.table = v.table)
    (hnext : BeamEdged t b h u w) : BeamEdged t b h v w where
  sampling := hfirst.sampling.trans hnext.sampling
  inputs := hnext.inputs.trans hfirst.inputs
  table := htable ▸ hnext.table
  head := hnext.head
  heads k j hkj := (hnext.heads k j hkj).trans (hfirst.heads k j hkj)
  passages k q hq := by
    obtain ⟨o, ho, hrun, horphan⟩ := hnext.passages k q hq
    obtain ⟨p, hp, hrun', horphan'⟩ := hfirst.passages k o ho
    exact ⟨p, hp, hrun.trans hrun', horphan.trans horphan'⟩

/-- The W_MAX deadline of a head begun now lies ahead. -/
theorem wMax_ahead {n : Nat} (h : 1000 ≤ n ∧ n ≤ 2000000) (now : Time) : isDue now (some (notBefore (plus now n) now)) = false := by
  have hint : (BitVec.ofNat 32 n).toInt = n := by
    rw [BitVec.toInt_eq_toNat_of_lt] <;> rw [BitVec.toNat_ofNat] <;> omega
  have hdiff : plus now n - now = BitVec.ofNat 32 n := by
    rw [plus, BitVec.add_comm, BitVec.add_sub_cancel]
  have hpos : 0 < (plus now n - now).toInt := by
    rw [hdiff, hint]
    omega
  rw [notBefore_eq, if_pos hpos, Bool.eq_false_iff]
  intro hdue
  rw [isDue_some.mp hdue, BitVec.sub_self] at hpos
  exact absurd hpos (by decide)

/-- An active edge in CLEAR now, on a part whose table has room. -/
theorem beamEdge_edged {v : State} {t : Track} {b : Beam} (hclear : ((v.heads.get t).get b).state = .clear)
    (hroom : v.table.records.length < 16) (hwMax : 1000 ≤ (v.config t).wMax ∧ (v.config t).wMax ≤ 2000000) :
    ∃ h : Head, h.tLead = v.clock.tb ∧ h.strips = 1 ∧ BeamEdged t b h v (v.beamEdge t b true v.clock.tb) := by
  let h : Head := ⟨v.clock.tb, 1, some (notBefore (plus v.clock.tb (v.config t).wMax) v.clock.tb), false, none⟩
  let begun := v.setHead t b { (v.heads.get t).get b with state := .covered h }
  let recorded := if (begun.head t b).role = .near then begun.recordHead t b h else begun
  have hbegun : BeamEdged t b h v begun := setHead_edged v t b rfl
  have hrecorded : BeamEdged t b h v recorded := by
    simp only [recorded]
    split
    · exact hbegun.trans rfl (recordHead_edged (v := begun) hroom (congrArg HeadUnit.state (head_setHead ..)))
    · exact hbegun
  have hedge : v.beamEdge t b true v.clock.tb = recorded.wMaxExpire t b := by
    rw [beamEdge_of_clear hclear, if_pos rfl]
    rfl
  obtain ⟨r, hcovered⟩ := hrecorded.head
  have hnow : recorded.now = v.clock.tb := congrArg Clock.tb hrecorded.sampling.clock
  have hahead : recorded.wMaxExpire t b = recorded := by
    rw [wMaxExpire_of_covered hcovered, hnow]
    exact if_neg (by rw [wMax_ahead hwMax]; exact Bool.false_ne_true)
  exact ⟨h, rfl, rfl, by rw [hedge, hahead]; exact hrecorded⟩

end Sys2Proof.Machine
end

section
/-! PROOFS. The start of TB (R2, R5, R112, R143, R159, R171): what holds from its beginning through every one of its events. O9. -/

namespace Sys2Proof.Machine

/-! ### The events of the start -/

/-- An event of the moment TB starts. -/
inductive StartEvent
  | live (t : Track)
  | sample (t : Track) (i : Input)
  | inhibit

/-- What an event does. -/
def StartEvent.run (e : StartEvent) (w : State) : State :=
  match e with
  | .live t => w.startLive t
  | .sample t i => w.firstSample t i
  | .inhibit => w.assertInhibit

/-- The events that have anything to do. -/
def State.startList (s : State) : List StartEvent :=
  (Track.all.filter (startLiveFlag s.image)).map .live
    ++ (Track.all.flatMap fun t => (Input.all.filter (s.showsActive t)).map fun i => .sample t i)
    ++ (if s.inhibit.pin then [.inhibit] else [])

theorem startEvents_eq (s : State) : s.startEvents = s.startList.map StartEvent.run := by
  have hinhibit : (if s.inhibit.pin then [StartEvent.inhibit] else []).map StartEvent.run = if s.inhibit.pin then [State.assertInhibit] else [] := by
    cases s.inhibit.pin <;> rfl
  unfold State.startEvents State.startList
  rw [List.map_append, List.map_append, List.map_map, List.map_flatMap, hinhibit]
  simp only [List.map_map]
  rfl

theorem live_mem_startList {s : State} {t : Track} : .live t ∈ s.startList ↔ startLiveFlag s.image t = true := by
  cases h : s.inhibit.pin <;> simp [State.startList, h, track_mem_all]

theorem sample_mem_startList {s : State} {t : Track} {i : Input} : .sample t i ∈ s.startList ↔ s.showsActive t i = true := by
  cases h : s.inhibit.pin <;> simp [State.startList, h, track_mem_all, input_mem_all]

theorem inhibit_mem_startList {s : State} : .inhibit ∈ s.startList ↔ s.inhibit.pin = true := by
  cases h : s.inhibit.pin <;> simp [State.startList, h]

theorem startList_length (s : State) : s.startList.length ≤ 16 := by
  have hlive : (Track.all.filter (startLiveFlag s.image)).length ≤ 2 := List.length_filter_le ..
  have hsample : ∀ t, (Input.all.filter (s.showsActive t)).length ≤ 4 := fun t => List.length_filter_le ..
  have hinhibit : (if s.inhibit.pin then [StartEvent.inhibit] else []).length ≤ 1 := by cases s.inhibit.pin <;> decide
  have hsamples : (Track.all.flatMap fun t => (Input.all.filter (s.showsActive t)).map fun i => StartEvent.sample t i).length ≤ 8 := by
    rw [show Track.all = [.t0, .t1] from rfl]
    simp only [List.flatMap_cons, List.flatMap_nil, List.append_nil, List.length_append, List.length_map]
    have := hsample .t0
    have := hsample .t1
    omega
  unfold State.startList
  rw [List.length_append, List.length_append, List.length_map]
  omega

/-- Events in some order, each of which keeps an invariant that may count them, and brings about what none of them undoes. -/
theorem inSomeOrder_reaches {ι : Type} {run : ι → State → State} {events : List ι} {limit : Nat} {I : Nat → State → Prop} {Q : ι → State → Prop}
    (hchoices : ∀ n w k, I n w → I n (w.setChoices k) ∧ ∀ e, Q e w → Q e (w.setChoices k))
    (hstep : ∀ n w, n < limit → I n w → ∀ e ∈ events, I (n + 1) (run e w) ∧ Q e (run e w) ∧ ∀ d, Q d w → Q d (run e w))
    {s u : State} (horder : s.InSomeOrder (events.map run) u) (hs : I 0 s) (hlimit : events.length ≤ limit) :
    I events.length u ∧ ∀ e ∈ events, Q e u := by
  obtain ⟨l, hl, hu⟩ := horder
  have hlength : l.length = events.length := by simpa using hl.length_eq
  have hmain : ∀ (l : List ((State → State) × Nat)) (n : Nat) (w : State), (∀ x ∈ l, x.1 ∈ events.map run) → n + l.length ≤ limit → I n w →
      I (n + l.length) (l.foldl (fun w a => a.1 (w.setChoices a.2)) w) ∧
        (∀ e, Q e w → Q e (l.foldl (fun w a => a.1 (w.setChoices a.2)) w)) ∧
        ∀ e ∈ events, run e ∈ l.map (·.1) → Q e (l.foldl (fun w a => a.1 (w.setChoices a.2)) w) := by
    intro l
    induction l with
    | nil => exact fun n w _ _ hw => ⟨hw, fun _ h => h, fun _ _ h => absurd h List.not_mem_nil⟩
    | cons x l ih =>
      intro n w hmem hn hw
      rw [List.length_cons] at hn
      obtain ⟨hw', hkeep⟩ := hchoices n w x.2 hw
      obtain ⟨d, hd, hrun⟩ := List.mem_map.mp (hmem x List.mem_cons_self)
      have hnext := hstep n _ (by omega) hw' d hd
      rw [hrun] at hnext
      obtain ⟨hI, -, hpreserve⟩ := hnext
      obtain ⟨hI', hpreserve', hbring'⟩ := ih (n + 1) _ (fun y hy => hmem y (List.mem_cons_of_mem _ hy)) (by omega) hI
      rw [List.foldl_cons, List.length_cons, ← Nat.add_assoc, Nat.add_right_comm]
      refine ⟨hI', fun e he => hpreserve' e (hpreserve e (hkeep e he)), fun e he hin => ?_⟩
      rcases List.mem_cons.mp hin with hhead | htail
      · have hbring := (hstep n _ (by omega) hw' e he).2.1
        rw [hhead] at hbring
        exact hpreserve' e hbring
      · exact hbring' e he htail
  obtain ⟨hI, -, hQ⟩ := hmain l 0 s (fun x hx => hl.mem_iff.mp (List.mem_map_of_mem hx)) (by omega) hs
  rw [Nat.zero_add, hlength] at hI
  rw [hu]
  exact ⟨hI, fun e he => hQ e he (hl.mem_iff.mpr (List.mem_map_of_mem he))⟩

/-! ### The blocks beside the samples -/

/-- A port as the start leaves it: its attendance restarted unless it is IN_RESET (R159). -/
def State.startPort (s : State) (p : PortId) : Port :=
  { s.ports.get p with
    attendAt := if (s.ports.get p).inReset = true ∨ Memory.read s.image (4 + portCode p) = 0 then none
      else some (BitVec.ofNat 32 ((Memory.read s.image (4 + portCode p)).toNat * 100000)) }

/-- The blocks that the events of the start leave, but for the flash inhibit. -/
structure StartFrame (s w : State) : Prop where
  clock : w.clock = { s.clock with power := .running, refPhase := 0, tb := 0, loadFailed := false }
  faults : w.faults = if s.clock.loadFailed = true then
      { flags := 0x80, held := some { kind := .storeInvalid, track := none, item := .none, time := 0 } }
    else { flags := 0, held := none }
  ports : ∀ p, w.ports.get p = s.startPort p
  store : w.store = s.store
  image : w.image = s.image
  maint : w.maint = s.maint
  bindings : w.bindings = s.bindings
  outputs : w.outputs = s.outputs
  stations : w.stations = s.stations
  triggers : w.triggers = s.triggers
  inhibit : w.inhibit = { pin := s.inhibit.pin, asserted := w.inhibit.asserted, sampleTaken := true }
  asserted : w.inhibit.asserted = true → s.inhibit.pin = true
  units : ∀ f, w.units.get f = { s.units.get f with state := if w.inhibit.asserted = true then .inhibited else .ready }

theorem StartFrame.of_sampling {s v u : State} (h : StartFrame s v) (k : OnlySampling v u) : StartFrame s u := by
  rw [k.eq]
  exact ⟨h.clock, h.faults, h.ports, h.store, h.image, h.maint, h.bindings, h.outputs, h.stations, h.triggers, h.inhibit, h.asserted, h.units⟩

theorem StartFrame.silent {s w : State} (h : StartFrame s w) (hfresh : FreshBlocks s) : Silent w := fun p => by
  obtain ⟨r, hr⟩ := hfresh.ports p
  rw [h.ports p, State.startPort, hr]
  exact ⟨rfl, rfl⟩

theorem foldl_of_idle {β : Type} {f : State → β → State} (hf : ∀ u b, f u b = u) (l : List β) (u : State) : l.foldl f u = u := by
  induction l with
  | nil => rfl
  | cons b l ih => rw [List.foldl_cons, hf, ih]

/-- From an empty trigger list nothing is removed. -/
theorem removeEntries_of_empty {v : State} (h : v.triggers = []) (sel : Entry → Bool) (lost : Option PortId) (testsDone : Bool) :
    v.removeEntries sel lost testsDone = v := by
  have hsame : (v.setTriggers []).setUnits v.units = v := by
    rw [← h]
    rfl
  unfold State.removeEntries
  rw [h]
  refine (foldl_of_idle (fun u n => foldl_of_idle (fun _ _ => rfl) _ _) _ _).trans hsame

/-- With an empty trigger list FLINH inhibits the units and removes nothing (R113). -/
theorem assertInhibit_eq {w : State} (htriggers : w.triggers = []) : w.assertInhibit =
    (w.setInhibit { pin := true, asserted := true, sampleTaken := true }).setUnits (.tabulate fun u => { w.units.get u with state := .inhibited }) :=
  removeEntries_of_empty (v := (w.setInhibit { pin := true, asserted := true, sampleTaken := true }).setUnits
    (.tabulate fun u => { w.units.get u with state := .inhibited })) htriggers _ none true

theorem StartFrame.assertInhibit {s w : State} (h : StartFrame s w) (hfresh : FreshBlocks s) (hpin : s.inhibit.pin = true) :
    StartFrame s w.assertInhibit := by
  rw [assertInhibit_eq (h.triggers.trans hfresh.triggers)]
  refine ⟨h.clock, h.faults, h.ports, h.store, h.image, h.maint, h.bindings, h.outputs, h.stations, h.triggers, ?_, fun _ => hpin, fun f => ?_⟩
  · rw [hpin]
    rfl
  · rw [setUnits_units, PerUnit.get_tabulate, h.units f]
    rfl

/-! ### The tracks (R143) -/

/-- Each track is as its reset left it, or has gone LIVE by its start-live flag with the snapshots of the image. -/
structure StartTracks (s w : State) : Prop where
  tracks : ∀ t, w.tracks.get t = s.tracks.get t ∨ (startLiveFlag s.image t = true ∧ s.validate t = none ∧
    w.tracks.get t = { mode := .live, snapshot := some (takeSnapshot s.image t), injections := [] })
  units : w.unitSnapshot.getD (takeUnits s.image) = takeUnits s.image

/-- A station's block names one track: the other track's snapshot does not hold it. -/
theorem snapshots_disjoint {m : Memory} {t k : Track} (hk : k ≠ t) {st : Station} {x y : StationConfig} (hx : (takeSnapshot m t).stations.get st = some x)
    (hy : (takeSnapshot m k).stations.get st = some y) : False := by
  have hnames : ∀ {t x}, (takeSnapshot m t).stations.get st = some x → imageStationTrack m st = some t := fun {t x} h => by
    by_contra hne
    rw [takeSnapshot, PerStation.get_tabulate, if_neg hne] at h
    cases h
  exact hk (Option.some.inj ((hnames hy).symm.trans (hnames hx)))

section Tracks

variable {s w : State} (hfresh : FreshBlocks s) (hw : StartTracks s w) (himage : w.image = s.image)

theorem StartTracks.of_same {u : State} (h : StartTracks s w) (htracks : u.tracks = w.tracks) (hunits : u.unitSnapshot = w.unitSnapshot) :
    StartTracks s u := by
  refine ⟨fun t => ?_, ?_⟩
  · rw [htracks]
    exact h.tracks t
  · rw [hunits]
    exact h.units

include hfresh

theorem mode_of_fresh (t : Track) : s.mode t = .out := congrArg TrackControl.mode (hfresh.tracks t)

/-- The checks of a snapshot of a part as its resets leave it. -/
theorem validate_of_fresh (t : Track) : s.validate t =
    firstFailure (checks (Memory.read s.image 0) (takeSnapshot s.image t) (takeUnits s.image) true none) := by
  unfold State.validate State.unitsFor
  simp only [mode_of_fresh hfresh, if_true]
  rfl

include hw

theorem StartTracks.mode (t : Track) : w.mode t = .out ∨ (w.mode t = .live ∧ startLiveFlag s.image t = true ∧ s.validate t = none) := by
  rcases hw.tracks t with h | ⟨hflag, hvalid, h⟩
  · exact .inl ((congrArg TrackControl.mode h).trans (mode_of_fresh hfresh t))
  · exact .inr ⟨congrArg TrackControl.mode h, hflag, hvalid⟩

include himage

/-- A track that is OUT is judged as it was before the other went LIVE (R141). -/
theorem StartTracks.validate (t : Track) : w.validate t = none ↔ s.validate t = none := by
  have hunits : w.unitsFor t = takeUnits s.image := by
    unfold State.unitsFor
    rw [himage, hw.units, ite_self]
  have hvalidate : w.validate t = firstFailure (checks (Memory.read s.image 0) (takeSnapshot s.image t) (takeUnits s.image)
      (w.mode t.other == .out) (if w.mode t.other = .out then none else (w.tracks.get t.other).snapshot)) := by
    unfold State.validate
    rw [himage, hunits]
  have hother : t.other ≠ t := by cases t <;> decide
  rcases hw.tracks t.other with h | ⟨-, hvalid, h⟩
  · have hout : w.mode t.other = .out := (congrArg TrackControl.mode h).trans (mode_of_fresh hfresh _)
    rw [hvalidate, validate_of_fresh hfresh, hout]
    exact Iff.rfl
  · have hlive : w.mode t.other = .live := congrArg TrackControl.mode h
    rw [validate_of_fresh hfresh, firstFailure_none_iff, forall_checks] at hvalid
    obtain ⟨-, -, hrecharge⟩ := hvalid
    rw [hvalidate, validate_of_fresh hfresh, firstFailure_none_iff, firstFailure_none_iff, forall_checks, forall_checks, hlive, h]
    refine and_congr Iff.rfl (and_congr ⟨fun hst st x hx he => ?_, fun hst st x hx he => ?_⟩ ⟨fun _ => hrecharge, fun _ hout => absurd hout (by decide)⟩)
    · obtain ⟨hplace, hranges, hpulse, hpolicy, hflash, -⟩ := hst st x hx he
      exact ⟨hplace, hranges, hpulse, hpolicy, hflash, fun o y ho => absurd ho (Option.some_ne_none o).symm⟩
    · obtain ⟨hplace, hranges, hpulse, hpolicy, hflash, -⟩ := hst st x hx he
      refine ⟨hplace, hranges, hpulse, hpolicy, hflash, fun o y ho hy => ?_⟩
      obtain rfl : takeSnapshot s.image t.other = o := Option.some.inj ho
      exact (snapshots_disjoint hother hx hy).elim

/-- Start-live of a track whose flag is set (R143): the track is LIVE afterwards exactly if its snapshot passes validation. -/
theorem StartTracks.startLive {t : Track} (hflag : startLiveFlag s.image t = true) :
    StartTracks s (w.startLive t) ∧ (s.validate t = none → (w.startLive t).mode t = .live) ∧
      (∀ k, w.mode k = .live → (w.startLive t).mode k = .live) ∧
      ∃ tracks units, w.startLive t = (w.setTracks tracks).setUnitSnapshot units := by
  have hvalidate := hw.validate hfresh himage t
  by_cases hlive : w.mode t = .out ∧ (w.validate t).isNone = true
  · have hvalid : s.validate t = none := hvalidate.mp (Option.isNone_iff_eq_none.mp hlive.2)
    have hinjections : (w.tracks.get t).injections = [] := by
      rcases hw.tracks t with h | ⟨-, -, h⟩ <;> rw [h]
      rw [hfresh.tracks t]
    have hrun : w.startLive t = (w.setTracks (w.tracks.set t { mode := .live, snapshot := some (takeSnapshot s.image t), injections := [] })).setUnitSnapshot
        (some (w.unitsFor t)) := by
      refine (if_pos hlive).trans ?_
      have hadopt := adopt_setMode_eq w t .live
      rw [himage] at hadopt
      exact hadopt.trans (congrArg (fun q => (w.setTracks (w.tracks.set t
        { mode := .live, snapshot := some (takeSnapshot s.image t), injections := q })).setUnitSnapshot (some (w.unitsFor t))) hinjections)
    rw [hrun]
    refine ⟨⟨fun k => ?_, ?_⟩, fun _ => ?_, fun k hk => ?_, _, _, rfl⟩
    · by_cases hk : t = k
      · subst hk
        exact .inr ⟨hflag, hvalid, PerTrack.get_set_self ..⟩
      · rw [setUnitSnapshot_tracks, setTracks_tracks, PerTrack.get_set_ne _ _ hk]
        exact hw.tracks k
    · have hunits : w.unitsFor t = takeUnits s.image := by
        unfold State.unitsFor
        rw [himage, hw.units, ite_self]
      rw [hunits]
      rfl
    · exact congrArg TrackControl.mode (PerTrack.get_set_self ..)
    · by_cases hkt : t = k
      · subst hkt
        exact congrArg TrackControl.mode (PerTrack.get_set_self ..)
      · exact (congrArg TrackControl.mode (PerTrack.get_set_ne _ _ hkt)).trans hk
  · have hrun : w.startLive t = w := if_neg hlive
    rw [hrun]
    refine ⟨hw, fun hvalid => ?_, fun _ => id, w.tracks, w.unitSnapshot, rfl⟩
    rcases hw.mode hfresh t with hout | ⟨hin, -⟩
    · exact absurd ⟨hout, Option.isNone_iff_eq_none.mpr (hvalidate.mpr hvalid)⟩ hlive
    · exact hin

/-- The settings in use are the clamped image's, which validation leaves as they are (R6, R47, R141). -/
theorem StartTracks.config (t : Track) : (w.config t).activeHigh = (s.config t).activeHigh ∧
    (∀ i, (w.config t).nFilt.get i = (s.config t).nFilt.get i) ∧ (w.config t).tStuck = (s.config t).tStuck ∧
    1000 ≤ (w.config t).wMax ∧ (w.config t).wMax ≤ 2000000 := by
  have hclamped : s.config t = clampTrack (imageTrack s.image t) := by
    unfold State.config
    rw [hfresh.tracks t]
  rcases hw.tracks t with h | ⟨-, hvalid, h⟩
  · have hsame : w.config t = s.config t := by
      unfold State.config
      rw [h, himage]
    rw [hsame]
    refine ⟨rfl, fun _ => rfl, rfl, ?_⟩
    rw [hclamped]
    show 1000 ≤ clamp 1000 2000000 _ ∧ clamp 1000 2000000 _ ≤ 2000000
    unfold clamp
    omega
  · have himageTrack : w.config t = imageTrack s.image t := by
      unfold State.config
      rw [h]
      rfl
    rw [validate_of_fresh hfresh, firstFailure_none_iff, forall_checks] at hvalid
    obtain ⟨⟨-, hrange, -⟩, -⟩ := hvalid
    obtain ⟨hnFilt, hstuck, -, -, hwMax, -⟩ := (trackInRange_iff _).mp hrange
    rw [himageTrack, hclamped]
    refine ⟨rfl, fun i => ?_, ?_, hwMax⟩
    · have hn : (imageTrack s.image t).nFilt.get i ≤ 1023 := hnFilt i
      show _ = (PerInput.tabulate fun i => min 1023 ((imageTrack s.image t).nFilt.get i)).get i
      rw [PerInput.get_tabulate, Nat.min_eq_right hn]
    · have hs : 50 ≤ (imageTrack s.image t).tStuck ∧ (imageTrack s.image t).tStuck ≤ 5000 := hstuck
      show _ = clamp 50 5000 _
      unfold clamp
      omega

end Tracks

end Sys2Proof.Machine
end

section
/-! PROOFS. The first samples at the start of TB (R5, R7, R18), and TB_START as a whole. O9. -/

namespace Sys2Proof.Machine

/-! ### The first samples -/

/-- The conditioner of an input before its first sample has been compared. -/
def State.unsampled (s : State) (t : Track) (i : Input) : Conditioner := { s.conditioner t i with sampleTaken := true }

/-- The conditioner of an input whose first sample shows its active level: a filter toward it, which N_FILT = 0 accepts at once. -/
def State.sampledActive (s : State) (t : Track) (i : Input) : Conditioner :=
  if (s.config t).nFilt.get i = 0 then { s.unsampled t i with pin := .active, stuckAt := stuckDeadlineFor (s.config t) i 0 }
  else { s.unsampled t i with filter := some { toActive := true, t0 := 0, deadline := BitVec.ofNat 32 ((s.config t).nFilt.get i) } }

/-- What the first samples have brought about: conditioners sampled or not, a head for each beam accepted as active, and a passage in a
LIVE track only, opened by a wheel accepted as active. -/
structure StartSamples (s w : State) : Prop where
  conditioners : ∀ t i, w.conditioner t i = s.unsampled t i ∨ (s.showsActive t i = true ∧ w.conditioner t i = s.sampledActive t i)
  clear : ∀ t b, (w.conditioner t (.beam b)).pin ≠ .active → ((w.heads.get t).get b).state = .clear
  covered : ∀ t b, (w.conditioner t (.beam b)).pin = .active → ∃ h, ((w.heads.get t).get b).state = .covered h ∧ h.tLead = 0 ∧ h.strips = 1
  passages : ∀ t p, w.passages.get t = some p → w.mode t ≠ .out ∧ p.reversed = false ∧ (∃ k, (w.conditioner t (.wheel k)).pin = .active) ∧
    ∀ k, (w.conditioner t (.wheel k)).pin ≠ .active → p.orphan = 0

section Samples

variable {s w : State} {t : Track} {i : Input}

theorem conditioner_set (w : State) (t : Track) (i : Input) (c : Conditioner) (k : Track) (j : Input) :
    (w.setConditioner t i c).conditioner k j = if k = t ∧ j = i then c else w.conditioner k j := by
  by_cases hk : t = k
  · subst hk
    by_cases hj : i = j
    · subst hj
      rw [conditioner_setConditioner, if_pos ⟨rfl, rfl⟩]
    · rw [conditioner_setConditioner_ne _ _ _ hj, if_neg fun h => hj h.2.symm]
  · rw [if_neg fun h => hk h.1.symm]
    exact congrArg (PerInput.get · j) (PerTrack.get_modify_ne _ _ hk)

theorem conditioner_of_inputs {u v : State} (h : u.inputs = v.inputs) (k : Track) (j : Input) : u.conditioner k j = v.conditioner k j := by
  unfold State.conditioner
  rw [h]

theorem unsampled_of_fresh (hfresh : FreshBlocks s) (t : Track) (i : Input) :
    (s.unsampled t i).pin = .inactive ∧ (s.unsampled t i).filter = none := by
  obtain ⟨r, hr⟩ := hfresh.inputs t i
  unfold State.unsampled State.conditioner
  rw [hr]
  exact ⟨rfl, rfl⟩

theorem sampledActive_pin (hfresh : FreshBlocks s) (t : Track) (i : Input) :
    (s.sampledActive t i).pin = if (s.config t).nFilt.get i = 0 then .active else .inactive := by
  unfold State.sampledActive
  split
  · rfl
  · exact (unsampled_of_fresh hfresh t i).1

theorem raw_of_samples (hsamples : StartSamples s w) (t : Track) (i : Input) : (w.conditioner t i).raw = (s.conditioner t i).raw := by
  rcases hsamples.conditioners t i with h | ⟨-, h⟩ <;> rw [h]
  · rfl
  · unfold State.sampledActive
    split <;> rfl

section Event

variable (hfresh : FreshBlocks s) (hframe : StartFrame s w) (htracks : StartTracks s w) (hsamples : StartSamples s w)
  (hshows : s.showsActive t i = true)
include hfresh hframe htracks hsamples hshows

/-- A first sample not yet compared begins its filter, which N_FILT = 0 accepts at once. -/
theorem firstSample_begins (hc : w.conditioner t i = s.unsampled t i) : w.firstSample t i =
    if (s.config t).nFilt.get i = 0 then (w.setConditioner t i (s.sampledActive t i)).handEdge t i true w.clock.tb
    else w.setConditioner t i (s.sampledActive t i) := by
  obtain ⟨hpin, hfilter⟩ := unsampled_of_fresh hfresh t i
  obtain ⟨hlevel, hn, hstuck, -⟩ := htracks.config hfresh hframe.image t
  have htb : w.clock.tb = 0 := by rw [hframe.clock]
  have hmode : w.mode t ≠ .test := by
    rcases htracks.mode hfresh t with h | ⟨h, -⟩ <;> rw [h] <;> decide
  have hraw := raw_of_samples hsamples t i
  have hshow : (w.showsActive t i && !(w.conditioner t i).conditionedActive) = true := by
    have hw : w.showsActive t i = true := by
      rw [← hshows, State.showsActive, State.showsActive, hlevel, hraw]
    rw [hw, hc, Conditioner.conditionedActive, hpin]
    rfl
  have hdeadline : stuckDeadlineFor (w.config t) i w.clock.tb = stuckDeadlineFor (s.config t) i 0 := by
    unfold stuckDeadlineFor
    rw [hstuck, htb]
  refine (if_pos hshow).trans ((startFilter_quiet hc hpin hfilter hmode).trans ?_)
  rw [hn, hdeadline]
  by_cases h : (s.config t).nFilt.get i = 0
  · rw [if_pos h, if_pos h, State.sampledActive, if_pos h]
  · rw [if_neg h, if_neg h, State.sampledActive, if_neg h, htb]
    exact congrArg (fun d => w.setConditioner t i { s.unsampled t i with filter := some { toActive := true, t0 := 0, deadline := d } })
      (BitVec.zero_add _)

end Event

/-- A first sample compared again changes nothing. -/
theorem firstSample_again (hfresh : FreshBlocks s) (hframe : StartFrame s w) (htracks : StartTracks s w)
    (hc : w.conditioner t i = s.sampledActive t i) : w.firstSample t i = w := by
  obtain ⟨hlevel, hn, -, -⟩ := htracks.config hfresh hframe.image t
  have htb : w.now = 0 := by rw [State.now, hframe.clock]
  unfold State.firstSample
  split
  · rename_i hshow
    have hnot : ¬ (s.config t).nFilt.get i = 0 := fun h => by
      have hactive : (w.conditioner t i).pin = .active := by rw [hc, sampledActive_pin hfresh, if_pos h]
      rw [Conditioner.conditionedActive, hactive] at hshow
      exact absurd (Bool.and_eq_true_iff.mp hshow).2 (by decide)
    have hfilter : { w.conditioner t i with filter := some { toActive := true, t0 := w.now, deadline := plus w.now ((w.config t).nFilt.get i) } } =
        w.conditioner t i := by
      rw [hc, State.sampledActive, if_neg hnot, hn, htb]
      exact congrArg (fun d => { s.unsampled t i with filter := some { toActive := true, t0 := 0, deadline := d } : Conditioner }) (BitVec.zero_add _)
    refine (if_neg (by rw [hn]; exact hnot)).trans ?_
    rw [hfilter, setConditioner_self]
  · rfl

/-- What a first sample leaves. -/
structure Sampled (s : State) (t : Track) (i : Input) (w u : State) : Prop where
  samples : StartSamples s u
  sampling : OnlySampling w u
  table : u.table.records.length ≤ w.table.records.length + 1
  conditioners : ∀ k j, u.conditioner k j = if k = t ∧ j = i then s.sampledActive t i else w.conditioner k j

/-- With N_FILT above 0 the filter begun is all. -/
theorem sampled_filter (hfresh : FreshBlocks s) (hsamples : StartSamples s w) (hshows : s.showsActive t i = true)
    (hc : w.conditioner t i = s.unsampled t i) (hn : (s.config t).nFilt.get i ≠ 0) :
    Sampled s t i w (w.setConditioner t i (s.sampledActive t i)) := by
  have hcond := conditioner_set w t i (s.sampledActive t i)
  have hpin : ∀ k j, ((w.setConditioner t i (s.sampledActive t i)).conditioner k j).pin = (w.conditioner k j).pin := fun k j => by
    rw [hcond]
    split
    · rename_i h
      rw [h.1, h.2, hc, sampledActive_pin hfresh, if_neg hn, (unsampled_of_fresh hfresh t i).1]
    · rfl
  refine ⟨⟨fun k j => ?_, fun k b => ?_, fun k b => ?_, fun k p hp => ?_⟩, ⟨rfl⟩, Nat.le_succ _, hcond⟩
  · rw [hcond]
    split
    · rename_i h
      rw [h.1, h.2]
      exact .inr ⟨hshows, rfl⟩
    · exact hsamples.conditioners k j
  · rw [hpin]
    exact hsamples.clear k b
  · rw [hpin]
    exact hsamples.covered k b
  · simp only [hpin]
    exact hsamples.passages k p hp

/-- A conditioner accepted as active: what every input's conditioner then is, and the pins of the others. -/
theorem conditioners_of_accepted (hsamples : StartSamples s w) (hshows : s.showsActive t i = true) (k : Track) (j : Input) :
    (w.setConditioner t i (s.sampledActive t i)).conditioner k j = s.unsampled k j ∨
      (s.showsActive k j = true ∧ (w.setConditioner t i (s.sampledActive t i)).conditioner k j = s.sampledActive k j) := by
  rw [conditioner_set]
  split
  · rename_i h
    rw [h.1, h.2]
    exact .inr ⟨hshows, rfl⟩
  · exact hsamples.conditioners k j

theorem wheel_cases {a b : Wheel} (h : a ≠ b) (j : Wheel) : j = a ∨ j = b := by
  cases a <;> cases b <;> cases j <;> simp_all

section Accepted

variable (hfresh : FreshBlocks s) (hframe : StartFrame s w) (htracks : StartTracks s w) (hsamples : StartSamples s w)
include hfresh hframe htracks hsamples

omit htracks in
/-- An accepted wheel input hands its edge to the passage unit. -/
theorem sampled_wheel {k : Wheel} (hshows : s.showsActive t (.wheel k) = true) (hc : w.conditioner t (.wheel k) = s.unsampled t (.wheel k))
    (hn : (s.config t).nFilt.get (.wheel k) = 0) :
    Sampled s t (.wheel k) w ((w.setConditioner t (.wheel k) (s.sampledActive t (.wheel k))).handEdge t (.wheel k) true w.clock.tb) := by
  generalize hv : w.setConditioner t (.wheel k) (s.sampledActive t (.wheel k)) = v
  have hcond : ∀ q j, v.conditioner q j = if q = t ∧ j = .wheel k then s.sampledActive t (.wheel k) else w.conditioner q j :=
    fun q j => hv ▸ conditioner_set ..
  have hinactive : (w.conditioner t (.wheel k)).pin ≠ .active := by
    rw [hc, (unsampled_of_fresh hfresh t _).1]
    decide
  have hactive : (v.conditioner t (.wheel k)).pin = .active := by
    rw [hcond, if_pos ⟨rfl, rfl⟩, sampledActive_pin hfresh, if_pos hn]
  have hbeam : ∀ q b, v.conditioner q (.beam b) = w.conditioner q (.beam b) := fun q b => by
    rw [hcond, if_neg fun h => Input.noConfusion h.2]
  have hwpassages : w.passages = v.passages := hv ▸ rfl
  have hwmode : ∀ q, v.mode q = w.mode q := fun q => hv ▸ rfl
  obtain ⟨hedged, hpassage⟩ := wheelEdge_edged (v := v) (t := t) (hv ▸ (hframe.silent hfresh : Silent w))
    (fun p hp => by
      obtain ⟨-, hrun, -, horphan⟩ := hsamples.passages t p (hwpassages ▸ hp)
      exact ⟨hrun, horphan k hinactive⟩) k w.clock.tb
  have hucond := conditioner_of_inputs hedged.inputs
  show Sampled s t (.wheel k) w (v.wheelEdge t k true w.clock.tb)
  have humode : ∀ q, (v.wheelEdge t k true w.clock.tb).mode q = w.mode q := fun q => by
    rw [← hwmode q, hedged.sampling.eq]
    rfl
  refine ⟨⟨fun q j => ?_, fun q b => ?_, fun q b => ?_, fun q p hp => ?_⟩, ?_, ?_, fun q j => (hucond q j).trans (hcond q j)⟩
  · rw [hucond, ← hv]
    exact conditioners_of_accepted hsamples hshows q j
  · rw [hucond, hbeam, hedged.heads, ← hv]
    exact hsamples.clear q b
  · rw [hucond, hbeam, hedged.heads, ← hv]
    exact hsamples.covered q b
  · simp only [hucond, humode]
    by_cases hq : q = t
    · subst hq
      obtain ⟨hrun, hopened⟩ := hpassage p hp
      cases ho : v.passages.get q with
      | none =>
        obtain ⟨hmode, horphan⟩ := hopened ho
        exact ⟨hwmode q ▸ hmode, hrun, ⟨k, hactive⟩, fun _ _ => horphan⟩
      | some o =>
        obtain ⟨hmode, -, ⟨first, hfirst⟩, -⟩ := hsamples.passages q o (hwpassages ▸ ho)
        have hne : first ≠ k := fun h => hinactive (h ▸ hfirst)
        have hfirst' : (v.conditioner q (.wheel first)).pin = .active := by
          rw [hcond, if_neg fun h => hne (Input.wheel.inj h.2)]
          exact hfirst
        refine ⟨hmode, hrun, ⟨k, hactive⟩, fun j hj => absurd ?_ hj⟩
        rcases wheel_cases hne j with rfl | rfl
        · exact hfirst'
        · exact hactive
    · rw [hedged.passages q hq, ← hwpassages] at hp
      have hother : ∀ j, v.conditioner q (.wheel j) = w.conditioner q (.wheel j) := fun j => by rw [hcond, if_neg fun h => hq h.1]
      simp only [hother]
      exact hsamples.passages q p hp
  · exact (hv ▸ setConditioner_sampling w t _ _ : OnlySampling w v).trans hedged.sampling
  · rw [hedged.table, ← hv]
    exact Nat.le_succ _

/-- An accepted beam input hands its edge to the head detector unit. -/
theorem sampled_beam {b : Beam} (hroom : w.table.records.length < 16) (hshows : s.showsActive t (.beam b) = true)
    (hc : w.conditioner t (.beam b) = s.unsampled t (.beam b)) (hn : (s.config t).nFilt.get (.beam b) = 0) :
    Sampled s t (.beam b) w ((w.setConditioner t (.beam b) (s.sampledActive t (.beam b))).handEdge t (.beam b) true w.clock.tb) := by
  generalize hv : w.setConditioner t (.beam b) (s.sampledActive t (.beam b)) = v
  have hcond : ∀ q j, v.conditioner q j = if q = t ∧ j = .beam b then s.sampledActive t (.beam b) else w.conditioner q j :=
    fun q j => hv ▸ conditioner_set ..
  have hinactive : (w.conditioner t (.beam b)).pin ≠ .active := by
    rw [hc, (unsampled_of_fresh hfresh t _).1]
    decide
  have hactive : (v.conditioner t (.beam b)).pin = .active := by
    rw [hcond, if_pos ⟨rfl, rfl⟩, sampledActive_pin hfresh, if_pos hn]
  have hwheel : ∀ q k, v.conditioner q (.wheel k) = w.conditioner q (.wheel k) := fun q k => by
    rw [hcond, if_neg fun h => Input.noConfusion h.2]
  have hheads : v.heads = w.heads := hv ▸ rfl
  have hwpassages : v.passages = w.passages := hv ▸ rfl
  have hwmode : ∀ q, v.mode q = w.mode q := fun q => hv ▸ rfl
  have hclock : v.clock.tb = w.clock.tb := hv ▸ rfl
  obtain ⟨h, hlead, hstrips, hedged⟩ := beamEdge_edged (v := v) (t := t) (b := b) (hheads ▸ hsamples.clear t b hinactive) (hv ▸ hroom)
    (hv ▸ (htracks.config hfresh hframe.image t).2.2.2)
  rw [hclock] at hlead hedged
  have hucond := conditioner_of_inputs hedged.inputs
  show Sampled s t (.beam b) w (v.beamEdge t b true w.clock.tb)
  have humode : ∀ q, (v.beamEdge t b true w.clock.tb).mode q = w.mode q := fun q => by
    rw [← hwmode q, hedged.sampling.eq]
    rfl
  refine ⟨⟨fun q j => ?_, fun q j hj => ?_, fun q j hj => ?_, fun q p hp => ?_⟩, ?_, ?_, fun q j => (hucond q j).trans (hcond q j)⟩
  · rw [hucond, ← hv]
    exact conditioners_of_accepted hsamples hshows q j
  · rw [hucond] at hj
    have hne : ¬ (q = t ∧ j = b) := fun hqj => hj (by rw [hqj.1, hqj.2]; exact hactive)
    rw [hedged.heads q j hne, hheads]
    rw [hcond, if_neg fun hqj => hne ⟨hqj.1, Input.beam.inj hqj.2⟩] at hj
    exact hsamples.clear q j hj
  · rw [hucond] at hj
    by_cases hqj : q = t ∧ j = b
    · obtain ⟨r, hr⟩ := hedged.head
      rw [hqj.1, hqj.2]
      have htb : w.clock.tb = 0 := by rw [hframe.clock]
      exact ⟨_, hr, hlead.trans htb, hstrips⟩
    · rw [hedged.heads q j hqj, hheads]
      rw [hcond, if_neg fun h => hqj ⟨h.1, Input.beam.inj h.2⟩] at hj
      exact hsamples.covered q j hj
  · obtain ⟨o, ho, hrun, horphan⟩ := hedged.passages q p hp
    simp only [hucond, humode, hwheel, hrun, horphan]
    exact hsamples.passages q o (hwpassages ▸ ho)
  · exact (hv ▸ setConditioner_sampling w t _ _ : OnlySampling w v).trans hedged.sampling
  · exact hv ▸ hedged.table

/-- A first sample, compared the first time or again. -/
theorem StartSamples.sample (hroom : w.table.records.length < 16) (hshows : s.showsActive t i = true) : Sampled s t i w (w.firstSample t i) := by
  rcases hsamples.conditioners t i with hc | ⟨-, hc⟩
  · rw [firstSample_begins hfresh hframe htracks hsamples hshows hc]
    split
    · rename_i hn
      match i with
      | .wheel k => exact sampled_wheel hfresh hframe hsamples hshows hc hn
      | .beam b => exact sampled_beam hfresh hframe htracks hsamples hroom hshows hc hn
    · rename_i hn
      exact sampled_filter hfresh hsamples hshows hc hn
  · rw [firstSample_again hfresh hframe htracks hc]
    refine ⟨hsamples, .refl w, Nat.le_succ _, fun k j => ?_⟩
    split
    · rename_i h
      rw [h.1, h.2, hc]
    · rfl

end Accepted

end Samples

/-! ### The start as a whole -/

/-- What holds at the start of TB and after each of its events, of which `n` have been taken. -/
structure Starting (s : State) (n : Nat) (w : State) : Prop where
  frame : StartFrame s w
  tracks : StartTracks s w
  samples : StartSamples s w
  table : w.table.records.length ≤ n

/-- What an event has brought about once it has been taken. -/
def Brought (s : State) (e : StartEvent) (w : State) : Prop :=
  match e with
  | .live t => s.validate t = none → w.mode t = .live
  | .sample t i => w.conditioner t i = s.sampledActive t i
  | .inhibit => w.inhibit.asserted = true

section Start

variable {s : State}

theorem StartTracks.of_sampling {w u : State} (h : StartTracks s w) (k : OnlySampling w u) : StartTracks s u := by
  rw [k.eq]
  exact h.of_same rfl rfl

theorem mode_of_sampling {w u : State} (h : OnlySampling w u) (t : Track) : u.mode t = w.mode t := by
  rw [h.eq]
  rfl

theorem inhibit_of_sampling {w u : State} (h : OnlySampling w u) : u.inhibit = w.inhibit := (congrArg State.inhibit h.eq).trans rfl

theorem starting_choices {n : Nat} {w : State} (k : Nat) (h : Starting s n w) :
    Starting s n (w.setChoices k) ∧ ∀ e, Brought s e w → Brought s e (w.setChoices k) :=
  ⟨⟨h.frame.of_sampling ⟨rfl⟩, h.tracks.of_sampling ⟨rfl⟩, ⟨h.samples.conditioners, h.samples.clear, h.samples.covered, h.samples.passages⟩, h.table⟩,
    fun e he => by cases e <;> exact he⟩

/-- Each event keeps what holds, brings about its own, and undoes nothing of the others. -/
theorem starting_step (hfresh : FreshBlocks s) {n : Nat} {w : State} (hn : n < 16) (h : Starting s n w) {e : StartEvent} (he : e ∈ s.startList) :
    Starting s (n + 1) (e.run w) ∧ Brought s e (e.run w) ∧ ∀ d, Brought s d w → Brought s d (e.run w) := by
  obtain ⟨hframe, htracks, hsamples, htable⟩ := h
  cases e with
  | live t =>
    obtain ⟨htracks', hlive, hkeep, x, y, hrun⟩ := htracks.startLive hfresh hframe.image (live_mem_startList.mp he)
    have hin : ∀ k, w.mode k ≠ .out → (w.startLive t).mode k ≠ .out := fun k hk => by
      rcases htracks.mode hfresh k with hout | ⟨hl, -⟩
      · exact absurd hout hk
      · rw [hkeep k hl]
        decide
    show Starting s (n + 1) (w.startLive t) ∧ _
    refine ⟨⟨?_, htracks', ⟨?_, ?_, ?_, fun k p hp => ?_⟩, ?_⟩, hlive, fun d hd => ?_⟩
    · rw [hrun]
      exact ⟨hframe.clock, hframe.faults, hframe.ports, hframe.store, hframe.image, hframe.maint, hframe.bindings, hframe.outputs, hframe.stations,
        hframe.triggers, hframe.inhibit, hframe.asserted, hframe.units⟩
    · rw [hrun]
      exact hsamples.conditioners
    · rw [hrun]
      exact hsamples.clear
    · rw [hrun]
      exact hsamples.covered
    · have hp' : w.passages.get k = some p := by rwa [hrun] at hp
      obtain ⟨hmode, hpassage⟩ := hsamples.passages k p hp'
      refine ⟨hin k hmode, ?_⟩
      rw [hrun]
      exact hpassage
    · rw [hrun]
      exact Nat.le_succ_of_le htable
    · cases d with
      | live k => exact fun hvalid => hkeep k (hd hvalid)
      | sample k i =>
        show (w.startLive t).conditioner k i = _
        rw [hrun]
        exact hd
      | inhibit =>
        show (w.startLive t).inhibit.asserted = true
        rw [hrun]
        exact hd
  | sample t i =>
    obtain ⟨hsamples', hsampling, htable', hcond⟩ :=
      hsamples.sample hfresh hframe htracks (Nat.lt_of_le_of_lt htable hn) (sample_mem_startList.mp he)
    refine ⟨⟨hframe.of_sampling hsampling, htracks.of_sampling hsampling, hsamples', htable'.trans (Nat.succ_le_succ htable)⟩, ?_, fun d hd => ?_⟩
    · exact (hcond t i).trans (if_pos ⟨rfl, rfl⟩)
    · cases d with
      | live k => exact fun hvalid => (mode_of_sampling hsampling k).trans (hd hvalid)
      | sample k j =>
        refine (hcond k j).trans ?_
        split
        · rename_i hkj
          rw [hkj.1, hkj.2]
        · exact hd
      | inhibit => exact (congrArg Inhibit.asserted (inhibit_of_sampling hsampling)).trans hd
  | inhibit =>
    have hrun := assertInhibit_eq (hframe.triggers.trans hfresh.triggers)
    have hframe' := hframe.assertInhibit hfresh (inhibit_mem_startList.mp he)
    show Starting s (n + 1) w.assertInhibit ∧ w.assertInhibit.inhibit.asserted = true ∧ ∀ d, Brought s d w → Brought s d w.assertInhibit
    rw [hrun] at hframe' ⊢
    refine ⟨⟨hframe', htracks.of_same rfl rfl, ⟨hsamples.conditioners, hsamples.clear, hsamples.covered, hsamples.passages⟩,
      Nat.le_succ_of_le htable⟩, rfl, fun d hd => ?_⟩
    cases d with
    | live k => exact hd
    | sample k i => exact hd
    | inhibit => rfl

/-- The state in which the events of the start are taken. -/
def State.atStart (s : State) : State :=
  (((s.setClock { s.clock with power := .running, refPhase := 0, tb := 0 }).raiseStoreInvalid).startAttendance).markSamples true

theorem raiseStoreInvalid_eq {v : State} (hsilent : Silent v) : v.raiseStoreInvalid =
    (v.setClock { v.clock with loadFailed := false }).setFaults (if v.clock.loadFailed then
      { flags := v.faults.flags ||| faultBit .storeInvalid
        held := v.faults.held.or (some { kind := .storeInvalid, track := none, item := .none, time := 0 }) } else v.faults) := by
  unfold State.raiseStoreInvalid
  cases h : v.clock.loadFailed
  · have hclock : { v.clock with loadFailed := false } = v.clock := by rw [← h]
    rw [hclock]
    rfl
  · exact raise_of_silent (s := v.setClock { v.clock with loadFailed := false }) hsilent _

end Start

end Sys2Proof.Machine
end

section
/-! PROOFS. TB_START: the state in which the events of the start are taken, and the start as a whole. O9. -/

namespace Sys2Proof.Machine

section Counting

variable {s : State}

theorem silent_of_fresh (hfresh : FreshBlocks s) : Silent s := fun p => by
  obtain ⟨r, hr⟩ := hfresh.ports p
  rw [hr]
  exact ⟨rfl, rfl⟩

theorem startAttendance_get (v : State) (p : PortId) : v.startAttendance.ports.get p =
    if (v.ports.get p).inReset = true then v.ports.get p else { v.ports.get p with attendAt := v.restarted p } := by
  unfold State.startAttendance
  rw [setPorts_ports, PerPort.get_tabulate, attendanceDeadline_eq]

theorem markSamples_conditioner (v : State) (taken : Bool) (t : Track) (i : Input) :
    (v.markSamples taken).conditioner t i = { v.conditioner t i with sampleTaken := taken } := by
  unfold State.markSamples
  rw [State.conditioner, setInhibit_inputs, setInputs_inputs, PerTrack.get_tabulate, PerInput.get_tabulate]

theorem restarted_zero {v : State} (himage : v.image = s.image) (htb : v.clock.tb = 0) (p : PortId) : v.restarted p =
    if Memory.read s.image (4 + portCode p) = 0 then none
    else some (BitVec.ofNat 32 ((Memory.read s.image (4 + portCode p)).toNat * 100000)) := by
  rw [State.restarted, himage, htb]
  exact congrArg (fun d => if Memory.read s.image (4 + portCode p) = 0 then none else some d) (BitVec.zero_add _)

/-- A port whose attendance is restarted with TB at 0. -/
theorem startAttendance_startPort (hfresh : FreshBlocks s) {v : State} (hports : v.ports = s.ports) (himage : v.image = s.image)
    (htb : v.clock.tb = 0) (p : PortId) : v.startAttendance.ports.get p = s.startPort p := by
  obtain ⟨r, hr⟩ := hfresh.ports p
  rw [startAttendance_get, State.startPort, restarted_zero himage htb, hports, hr]
  by_cases h : Memory.read s.image (4 + portCode p) = 0 <;> cases r <;> simp [h]

/-- The start of the part's blocks: all but the time base, the fault block, the ports and the samples is as the reset left it. -/
theorem atStart_eq (hfresh : FreshBlocks s) : ∃ v : State,
    v = (s.setClock { s.clock with power := .running, refPhase := 0, tb := 0, loadFailed := false }).setFaults
      (if s.clock.loadFailed = true then
        { flags := 0x80, held := some { kind := .storeInvalid, track := none, item := .none, time := 0 } }
      else { flags := 0, held := none }) ∧
    s.atStart = v.startAttendance.markSamples true := by
  have hsilent : Silent s := silent_of_fresh hfresh
  refine ⟨_, rfl, congrArg (fun v : State => v.startAttendance.markSamples true) ?_⟩
  refine (raiseStoreInvalid_eq (v := s.setClock { s.clock with power := .running, refPhase := 0, tb := 0 }) hsilent).trans ?_
  rw [setClock_faults, hfresh.faults]
  rfl

theorem atStart_showsActive (hfresh : FreshBlocks s) (t : Track) (i : Input) : s.atStart.showsActive t i = s.showsActive t i := by
  obtain ⟨v, hv, hstart⟩ := atStart_eq hfresh
  rw [State.showsActive, hstart, markSamples_conditioner, hv]
  rfl

theorem atStart_startList (hfresh : FreshBlocks s) : s.atStart.startList = s.startList := by
  have hshows : s.atStart.showsActive = s.showsActive := funext fun t => funext fun i => atStart_showsActive hfresh t i
  obtain ⟨v, hv, hstart⟩ := atStart_eq hfresh
  have himage : s.atStart.image = s.image := by
    rw [hstart, hv]
    rfl
  have hpin : s.atStart.inhibit.pin = s.inhibit.pin := by
    rw [hstart, hv]
    rfl
  unfold State.startList
  rw [hshows, himage, hpin]

/-- TB_START takes the events of the start in the order the model chooses (R2). -/
theorem startCounting_eq (hfresh : FreshBlocks s) (hload : s.clock.power = .loading) :
    s.startCounting = s.atStart.takeAll (s.startList.map StartEvent.run) := by
  rw [← atStart_startList hfresh, ← startEvents_eq]
  exact if_pos hload

theorem atStart_frame (hfresh : FreshBlocks s) : StartFrame s s.atStart := by
  obtain ⟨v, hv, hstart⟩ := atStart_eq hfresh
  have hports : ∀ p, s.atStart.ports.get p = s.startPort p := fun p => by
    rw [hstart]
    exact startAttendance_startPort hfresh (hv ▸ rfl) (hv ▸ rfl) (hv ▸ rfl) p
  have hasserted : s.atStart.inhibit.asserted = false := by
    rw [hstart, hv]
    exact hfresh.inhibit
  rw [hstart, hv] at hports hasserted ⊢
  refine ⟨rfl, rfl, hports, rfl, rfl, rfl, rfl, rfl, rfl, rfl, rfl, fun h => absurd (hasserted.symm.trans h) Bool.false_ne_true, fun f => ?_⟩
  rw [if_neg fun h => absurd (hasserted.symm.trans h) Bool.false_ne_true]
  show s.units.get f = _
  rw [hfresh.units f]

theorem atStart_starting (hfresh : FreshBlocks s) : Starting s 0 s.atStart := by
  have hframe := atStart_frame hfresh
  obtain ⟨v, hv, hstart⟩ := atStart_eq hfresh
  have hcond : ∀ t i, s.atStart.conditioner t i = s.unsampled t i := fun t i => by
    rw [hstart, markSamples_conditioner, hv]
    rfl
  have hinactive : ∀ t i, (s.atStart.conditioner t i).pin ≠ .active := fun t i => by
    rw [hcond, (unsampled_of_fresh hfresh t i).1]
    decide
  refine ⟨hframe, ⟨fun t => .inl ?_, ?_⟩, ⟨fun t i => .inl (hcond t i), fun t b _ => ?_, fun t b h => absurd h (hinactive t (.beam b)), fun t p hp => ?_⟩, ?_⟩
  · rw [hstart, hv]
    rfl
  · have hnone : s.atStart.unitSnapshot = none := by
      rw [hstart, hv]
      exact hfresh.unitSnapshot
    rw [hnone]
    rfl
  · have hheads : s.atStart.heads = s.heads := by
      rw [hstart, hv]
      rfl
    rw [hheads, hfresh.heads t b]
  · have hnone : s.atStart.passages.get t = none := by
      rw [hstart, hv]
      exact hfresh.passages t
    rw [hnone] at hp
    cases hp
  · have htable : s.atStart.table = s.table := by
      rw [hstart, hv]
      rfl
    rw [htable, hfresh.table]
    exact Nat.le_refl 0

/-- After TB_START what every event keeps holds, and each event has brought about its own. -/
theorem startCounting_reaches (hfresh : FreshBlocks s) (hload : s.clock.power = .loading) :
    Starting s s.startList.length s.startCounting ∧ ∀ e ∈ s.startList, Brought s e s.startCounting := by
  rw [startCounting_eq hfresh hload]
  exact inSomeOrder_reaches (limit := 16) (fun _ _ k h => starting_choices k h) (fun _ _ hn h _ he => starting_step hfresh hn h he)
    (takeAll_inSomeOrder _ _) (atStart_starting hfresh) (startList_length s)

/-! ### What the start leaves -/

variable (hfresh : FreshBlocks s) (hload : s.clock.power = .loading)
include hfresh hload

theorem startCounting_mode (t : Track) : s.startCounting.mode t =
    if (Memory.read s.image 0x001).getLsbD (trackCode t) ∧ s.validate t = none then .live else .out := by
  obtain ⟨hstarting, hbrought⟩ := startCounting_reaches hfresh hload
  split
  · rename_i h
    exact hbrought (.live t) (live_mem_startList.mpr h.1) h.2
  · rename_i h
    rcases hstarting.tracks.mode hfresh t with hout | ⟨-, hflag, hvalid⟩
    · exact hout
    · exact absurd ⟨hflag, hvalid⟩ h

/-- The conditioner of an input is its first sample's outcome (R5, R7). -/
theorem startCounting_conditioner (t : Track) (i : Input) : s.startCounting.conditioner t i =
    if s.showsActive t i = true then s.sampledActive t i else s.unsampled t i := by
  obtain ⟨hstarting, hbrought⟩ := startCounting_reaches hfresh hload
  split
  · rename_i h
    exact hbrought (.sample t i) (sample_mem_startList.mpr h)
  · rename_i h
    rcases hstarting.samples.conditioners t i with hc | ⟨hshows, -⟩
    · exact hc
    · exact absurd hshows h

theorem startCounting_active_iff (t : Track) (i : Input) : (s.startCounting.conditioner t i).pin = .active ↔
    s.showsActive t i = true ∧ (s.config t).nFilt.get i = 0 := by
  rw [startCounting_conditioner hfresh hload]
  by_cases hshows : s.showsActive t i = true
  · rw [if_pos hshows, sampledActive_pin hfresh]
    by_cases hn : (s.config t).nFilt.get i = 0 <;> simp [hn, hshows]
  · rw [if_neg hshows, (unsampled_of_fresh hfresh t i).1]
    simp [hshows]

theorem startCounting_asserted : s.startCounting.inhibit.asserted = s.inhibit.pin := by
  obtain ⟨hstarting, hbrought⟩ := startCounting_reaches hfresh hload
  cases hpin : s.inhibit.pin
  · rw [Bool.eq_false_iff]
    exact fun h => absurd ((hstarting.frame.asserted h).symm.trans hpin) (by decide)
  · exact hbrought .inhibit (inhibit_mem_startList.mpr hpin)

end Counting

/-- The outcome of a first sample on a conditioner as its reset left it, field by field (R7, R11). -/
theorem sampled_fields {s : State} (hfresh : FreshBlocks s) (t : Track) (i : Input) :
    (if s.showsActive t i = true then s.sampledActive t i else s.unsampled t i) =
      { s.conditioner t i with
        sampleTaken := true
        filter := if s.showsActive t i = true ∧ (s.config t).nFilt.get i ≠ 0 then
          some { toActive := true, t0 := 0, deadline := BitVec.ofNat 32 ((s.config t).nFilt.get i) } else none
        pin := if s.showsActive t i = true ∧ (s.config t).nFilt.get i = 0 then .active else .inactive
        stuckAt := if s.showsActive t i = true ∧ (s.config t).nFilt.get i = 0 then stuckDeadlineFor (s.config t) i 0 else none } := by
  obtain ⟨r, hr⟩ := hfresh.inputs t i
  have hc : s.conditioner t i = _ := hr
  unfold State.sampledActive State.unsampled
  rw [hc]
  by_cases hshows : s.showsActive t i = true
  · by_cases hn : (s.config t).nFilt.get i = 0 <;> simp [hn, hshows]
  · simp [hshows]

/-- Settles O9, by what holds when TB starts and is kept by every event of the start, whatever their order, while each brings about its own. -/
theorem tbStartBeginsCounting : Obligations.TbStartBeginsCounting := by
  unfold Obligations.TbStartBeginsCounting
  intro s c shows n monitor
  refine ⟨fun h => congrArg Host.Outcome.next (if_neg h), fun hload hfresh => ⟨s.startCounting, rfl, ?_⟩⟩
  obtain ⟨⟨hframe, htracks, hsamples, -⟩, -⟩ := startCounting_reaches hfresh hload
  have hactive := startCounting_active_iff hfresh hload
  have hasserted := startCounting_asserted hfresh hload
  have hmonitor : ∀ t i, stuckDeadlineFor (s.config t) i 0 = monitor t i := fun t i => by
    cases i with
    | wheel k => exact congrArg some (BitVec.zero_add _)
    | beam b => rfl
  refine ⟨hframe.clock, hframe.faults, hframe.ports, startCounting_mode hfresh hload, fun t i => ?_, fun t b hshows hn => ?_, fun t b h => ?_,
    fun t ht => ?_, ?_, fun f => ?_, hframe.store, hframe.image, hframe.maint, hframe.bindings, hframe.outputs, hframe.stations, hframe.triggers⟩
  · have hc := (startCounting_conditioner hfresh hload t i).trans (sampled_fields hfresh t i)
    rw [hmonitor] at hc
    exact hc
  · exact hsamples.covered t b ((hactive t (.beam b)).mpr ⟨hshows, hn⟩)
  · exact hsamples.clear t b fun hpin => h ((hactive t (.beam b)).mp hpin)
  · obtain ⟨p, hp⟩ := Option.ne_none_iff_exists'.mp ht
    obtain ⟨hmode, -, ⟨w, hw⟩, -⟩ := hsamples.passages t p hp
    refine ⟨?_, w, (hactive t (.wheel w)).mp hw⟩
    rcases htracks.mode hfresh t with hout | ⟨hlive, -⟩
    · exact absurd hout hmode
    · exact hlive
  · rw [hframe.inhibit, hasserted]
  · rw [hframe.units f, hasserted]

end Sys2Proof.Machine
end
